-- ==== Sys2Proof/Word.lean ====
section
/-! DEFINITION. The two widths of the block: the byte on every port (R8, R10) and the 9-bit count CNT (R9, R22). -/

namespace Sys2Proof

/-- An unsigned integer 0 to 255 (R10). -/
abbrev Byte := BitVec 8

/-- The width of CNT, 9 bits (R9 `CNT_WIDTH`, R22). -/
abbrev Count := BitVec 9

end Sys2Proof
end

