-- ==== Sys2Proof/Config.lean ====
section
/-! DEFINITION. The constants the source fixes (R8), the parameters it leaves open (R9), and the codes of the two fatal conditions (R171). -/

namespace Sys2Proof

/-- The kinds of fatal condition, symbolic names with no numbers (R171, D11). -/
inductive FatalKind where
  /-- A transport read error (R173). -/
  | ioError
  /-- The byte source ended (R174). -/
  | eos
  deriving DecidableEq, Repr

namespace Config

/-- SENTINEL, the byte that starts a frame (R8). UNVERIFIED against a real device (N2, U19; log 14). -/
def sentinel : Byte := 0xAA
/-- SEED, the initial value of the exclusive-or accumulator (R8). UNVERIFIED likewise (log 14). -/
def seed : Byte := 0x55
/-- HDR_LEN: class, device address, fixed byte (R8). -/
def hdrLen : Nat := 3
/-- LEN_BYTES (R8). -/
def lenBytes : Nat := 1
/-- CK_BYTES (R8). -/
def ckBytes : Nat := 1
/-- OVERHEAD, the bytes of a frame other than payload (R8). -/
def overhead : Nat := 1 + hdrLen + lenBytes + ckBytes
/-- N_MIN (R9, D6). -/
def nMin : Nat := 0
/-- N_MAX (R9, D7). -/
def nMax : Nat := 255
/-- BUF_CAP = OVERHEAD + N_MAX cells of BUF (R9, R21). -/
def bufCap : Nat := overhead + nMax

/-- RX_CHUNK_MAX less one. The source gives no size (R9, D3, U3; log 7), so no proof can see its value. -/
opaque rxChunkMaxLessOne : Nat
/-- RX_CHUNK_MAX, the most bytes one read result delivers: OPEN, at least 1 (R9, D3). -/
def rxChunkMax : Nat := rxChunkMaxLessOne + 1
/-- RXQ_DEPTH, the capacity of the backlog, equal to RX_CHUNK_MAX (R9, R27). -/
def rxqDepth : Nat := rxChunkMax

end Config

end Sys2Proof
end

