-- ==== Sys2Proof/Syntax.lean ====
section
/-! DEFINITION. The sixteen operations of the block, one constructor per row of spec/opcode_table.json (R95, R97). -/

namespace Sys2Proof

/-- One operation: the block's complete reaction to one event (R3). A framing operation carries the byte `b` that POP
removed from the backlog; SYNC carries none, because its byte is the sentinel. -/
inductive Instr where
  /-- R132: POP in HUNT, b = 0xAA. -/
  | sync
  /-- R131: POP in HUNT, b other than 0xAA. -/
  | skip (b : Byte)
  /-- R133: POP in HEADER. -/
  | hdr (b : Byte)
  /-- R134: POP in LENGTH. -/
  | len (b : Byte)
  /-- R135: POP in PAYLOAD. -/
  | pay (b : Byte)
  /-- R137: POP in CHECKSUM, ACC xor b = 0. -/
  | accept (b : Byte)
  /-- R138: POP in CHECKSUM, ACC xor b not 0. -/
  | drop (b : Byte)
  /-- R156: FS examines one byte of the backlog. -/
  | pop
  /-- R152: the consumer asks for the next frame. -/
  | next
  /-- R153: a transport read returned bytes. -/
  | rxchunk (bs : List Byte)
  /-- R154: a transport read returned no bytes. -/
  | rxnodata
  /-- R155: a transport read failed, or the stream ended. -/
  | rxfail (kind : FatalKind)
  /-- R157: return to the reset state. -/
  | reset
  /-- R118: begin a checksum. -/
  | gstart
  /-- R119: pass one byte through the generator. -/
  | gbyte (b : Byte)
  /-- R120: emit the checksum byte. -/
  | gend
  deriving DecidableEq, Repr

end Sys2Proof
end

