-- ==== Sys2Proof/WellFormed.lean ====
section
/-! DEFINITION. Which operand values an operation admits: R131 (SKIP), R90 and R153 (RXCHUNK); every other operand is free (R88). -/

namespace Sys2Proof

/-- The operand conditions of the rules: SKIP's byte is not the sentinel (R131); RXCHUNK's list has 1 to RX_CHUNK_MAX
bytes (R90, R153). Every byte value is legal everywhere else (R88). -/
def Instr.wf : Instr → Bool
  | .sync => true
  | .skip b => b != Config.sentinel
  | .hdr _ => true
  | .len _ => true
  | .pay _ => true
  | .accept _ => true
  | .drop _ => true
  | .pop => true
  | .next => true
  | .rxchunk bs => decide (1 ≤ bs.length) && decide (bs.length ≤ Config.rxChunkMax)
  | .rxnodata => true
  | .rxfail _ => true
  | .reset => true
  | .gstart => true
  | .gbyte _ => true
  | .gend => true

end Sys2Proof
end

