-- ==== Sys2Proof/Decode.lean ====
section
/-! DEFINITION. Events and phases (R24, R90), the dispatch table that selects an operation (R95, R96, R130), the trace
notation of the input events (R100), and the encoder beside each. -/

namespace Sys2Proof

/-! ### Events (R90) and phases (R24) -/

/-- The phase of FS: which field of a frame the next byte belongs to (R24). -/
inductive Phase where
  | hunt | header | length | payload | checksum | fault
  deriving DecidableEq, Repr

/-- The input events of R90: what comes from the transport, the consumer, the host and the generator's client. -/
inductive InputEvent where
  | reset
  | next
  | rxchunk (bs : List Byte)
  | rxnodata
  | rxfail (kind : FatalKind)
  | gstart
  | gbyte (b : Byte)
  | gend
  deriving DecidableEq, Repr

/-- What selects an operation (R95): an input event, FS's own step POP, or the byte POP took. -/
inductive Event where
  | input (e : InputEvent)
  | pop
  | byte (b : Byte)
  deriving DecidableEq, Repr

/-- The first column of R95. -/
inductive EventKind where
  | reset | next | rxchunk | rxnodata | rxfail | gstart | gbyte | gend | pop | byte
  deriving DecidableEq, Repr

/-- The sixteen mnemonics of spec/opcode_table.json. -/
inductive OpName where
  | sync | skip | hdr | len | pay | accept | drop | pop | next
  | rxchunk | rxnodata | rxfail | reset | gstart | gbyte | gend
  deriving DecidableEq, Repr

/-- The `format` column of spec/opcode_table.json: the event class (R97). -/
inductive Format where
  | pop | internal | rx | ctl | gen
  deriving DecidableEq, Repr

/-- Why no operation is selected, or why a text is no event. -/
inductive Reject where
  /-- A byte was offered in a state of no POP phase: phase FAULT, or CNT beyond the checksum position (R95, R24). -/
  | byteWithoutPhase
  /-- An RX event while RDREQ = 0 (R95, R151). -/
  | rxNotAdmitted
  /-- POP while it is not enabled (R156). -/
  | popNotEnabled
  /-- The bytes are no event of the notation of R100. -/
  | notAnEvent
  /-- The event is not of the event class asked for (R97). -/
  | wrongFormat
  /-- The byte list ends before the operand. -/
  | endOfBytes
  deriving DecidableEq, Repr

/-- What dispatch reads of the state: the phase (R24; none where R24 names none), ACC where it is valid (R26), RDREQ (R151)
and whether POP is enabled (R156). -/
structure Ctx where
  phase : Option Phase
  acc : Option Byte
  rdreq : Bool
  popReady : Bool
  deriving DecidableEq, Repr

def InputEvent.kind : InputEvent → EventKind
  | .reset => .reset
  | .next => .next
  | .rxchunk _ => .rxchunk
  | .rxnodata => .rxnodata
  | .rxfail _ => .rxfail
  | .gstart => .gstart
  | .gbyte _ => .gbyte
  | .gend => .gend

def Event.kind : Event → EventKind
  | .input e => e.kind
  | .pop => .pop
  | .byte _ => .byte

/-- The operand byte the mask and match of R95 test; an event without one counts as 0x00, and its row has mask 0x00. -/
def Event.operand : Event → Byte
  | .input (.gbyte b) => b
  | .byte b => b
  | _ => 0x00

/-! ### The dispatch table (R95) -/

/-- The second column of R95: `any` phase, every `live` phase, or one phase. -/
inductive PhaseTest where
  | any | live
  | only (p : Phase)
  deriving DecidableEq, Repr

/-- The "further condition" column of R95. -/
inductive Cond where
  /-- No further condition. -/
  | always
  /-- b is not 0xAA (the row above did not apply). -/
  | notSentinel
  /-- ACC xor b = 0. -/
  | accZero
  /-- ACC xor b is not 0. -/
  | accNonzero
  /-- RDREQ = 1. -/
  | readRequested
  /-- DEMAND = 1, FAULT = NONE and RXQ not empty. -/
  | popEnabled
  deriving DecidableEq, Repr

/-- One row of R95. -/
structure DispatchRow where
  event : EventKind
  phase : PhaseTest
  mask : Byte
  pattern : Byte
  cond : Cond
  op : OpName
  deriving DecidableEq, Repr

/-- The table of R95, in its order, with the row of POP itself (R97, R156). -/
def dispatchTable : List DispatchRow :=
  [ ⟨.byte, .only .hunt, 0xFF, 0xAA, .always, .sync⟩,
    ⟨.byte, .only .hunt, 0x00, 0x00, .notSentinel, .skip⟩,
    ⟨.byte, .only .header, 0x00, 0x00, .always, .hdr⟩,
    ⟨.byte, .only .length, 0x00, 0x00, .always, .len⟩,
    ⟨.byte, .only .payload, 0x00, 0x00, .always, .pay⟩,
    ⟨.byte, .only .checksum, 0x00, 0x00, .accZero, .accept⟩,
    ⟨.byte, .only .checksum, 0x00, 0x00, .accNonzero, .drop⟩,
    ⟨.pop, .live, 0x00, 0x00, .popEnabled, .pop⟩ ] ++
  [ ⟨.next, .any, 0x00, 0x00, .always, .next⟩,
    ⟨.rxchunk, .live, 0x00, 0x00, .readRequested, .rxchunk⟩,
    ⟨.rxnodata, .live, 0x00, 0x00, .readRequested, .rxnodata⟩,
    ⟨.rxfail, .live, 0x00, 0x00, .readRequested, .rxfail⟩,
    ⟨.reset, .any, 0x00, 0x00, .always, .reset⟩,
    ⟨.gstart, .any, 0x00, 0x00, .always, .gstart⟩,
    ⟨.gbyte, .any, 0x00, 0x00, .always, .gbyte⟩,
    ⟨.gend, .any, 0x00, 0x00, .always, .gend⟩ ]

/-- Does the phase column hold? -/
def phaseHolds (c : Ctx) : PhaseTest → Bool
  | .any => true
  | .live => c.phase != some .fault
  | .only p => c.phase == some p

/-- Does the further condition hold for operand byte `b`? -/
def condHolds (c : Ctx) (b : Byte) : Cond → Bool
  | .always => true
  | .notSentinel => b != Config.sentinel
  | .accZero => match c.acc with
    | some a => a ^^^ b == 0x00
    | none => false
  | .accNonzero => match c.acc with
    | some a => a ^^^ b != 0x00
    | none => false
  | .readRequested => c.rdreq
  | .popEnabled => c.popReady

/-- A row applies when its event kind, phase, byte test and further condition all hold (R95). -/
def rowApplies (c : Ctx) (e : Event) (r : DispatchRow) : Bool :=
  r.event == e.kind && phaseHolds c r.phase && e.operand &&& r.mask == r.pattern && condHolds c e.operand r.cond

/-- The first row that applies (R95: the row with the non-zero mask is tried first). -/
def selectRow (c : Ctx) (e : Event) : Option DispatchRow :=
  dispatchTable.find? (rowApplies c e)

/-- The operation named `op` with the operand of event `e`. -/
def instrOf : OpName → Event → Option Instr
  | .sync, .byte _ => some .sync
  | .skip, .byte b => some (.skip b)
  | .hdr, .byte b => some (.hdr b)
  | .len, .byte b => some (.len b)
  | .pay, .byte b => some (.pay b)
  | .accept, .byte b => some (.accept b)
  | .drop, .byte b => some (.drop b)
  | .pop, .pop => some .pop
  | .next, .input .next => some .next
  | .rxchunk, .input (.rxchunk bs) => some (.rxchunk bs)
  | .rxnodata, .input .rxnodata => some .rxnodata
  | .rxfail, .input (.rxfail k) => some (.rxfail k)
  | .reset, .input .reset => some .reset
  | .gstart, .input .gstart => some .gstart
  | .gbyte, .input (.gbyte b) => some (.gbyte b)
  | .gend, .input .gend => some .gend
  | _, _ => none

/-- The name of the reason why no row applies to an event. -/
def rejection : Event → Reject
  | .byte _ => .byteWithoutPhase
  | .pop => .popNotEnabled
  | .input _ => .rxNotAdmitted

/-- The decoder: which operation event `e` selects in context `c` (R95, R130). Total; it rejects by name. -/
def decode (c : Ctx) (e : Event) : Except Reject Instr :=
  match (selectRow c e).bind fun r => instrOf r.op e with
  | some i => .ok i
  | none => .error (rejection e)

/-- The mnemonic of an operation. -/
def Instr.opName : Instr → OpName
  | .sync => .sync
  | .skip _ => .skip
  | .hdr _ => .hdr
  | .len _ => .len
  | .pay _ => .pay
  | .accept _ => .accept
  | .drop _ => .drop
  | .pop => .pop
  | .next => .next
  | .rxchunk _ => .rxchunk
  | .rxnodata => .rxnodata
  | .rxfail _ => .rxfail
  | .reset => .reset
  | .gstart => .gstart
  | .gbyte _ => .gbyte
  | .gend => .gend

/-- The event class of an operation (R97, the `format` column). -/
def Instr.format : Instr → Format
  | .sync => .pop
  | .skip _ => .pop
  | .hdr _ => .pop
  | .len _ => .pop
  | .pay _ => .pop
  | .accept _ => .pop
  | .drop _ => .pop
  | .pop => .internal
  | .next => .ctl
  | .rxchunk _ => .rx
  | .rxnodata => .rx
  | .rxfail _ => .rx
  | .reset => .ctl
  | .gstart => .gen
  | .gbyte _ => .gen
  | .gend => .gen

/-- The event that selects an operation (R95, first column). -/
def Instr.event : Instr → Event
  | .sync => .byte Config.sentinel
  | .skip b => .byte b
  | .hdr b => .byte b
  | .len b => .byte b
  | .pay b => .byte b
  | .accept b => .byte b
  | .drop b => .byte b
  | .pop => .pop
  | .next => .input .next
  | .rxchunk bs => .input (.rxchunk bs)
  | .rxnodata => .input .rxnodata
  | .rxfail k => .input (.rxfail k)
  | .reset => .input .reset
  | .gstart => .input .gstart
  | .gbyte b => .input (.gbyte b)
  | .gend => .input .gend

/-- The contexts in which R95 selects operation `i` (its phase and further condition; the byte test apart). -/
def Instr.selectedIn (c : Ctx) : Instr → Bool
  | .sync => c.phase == some .hunt
  | .skip _ => c.phase == some .hunt
  | .hdr _ => c.phase == some .header
  | .len _ => c.phase == some .length
  | .pay _ => c.phase == some .payload
  | .accept b => c.phase == some .checksum && c.acc == some b
  | .drop b => c.phase == some .checksum && c.acc.isSome && c.acc != some b
  | .pop => c.phase != some .fault && c.popReady
  | .next => true
  | .rxchunk _ => c.phase != some .fault && c.rdreq
  | .rxnodata => c.phase != some .fault && c.rdreq
  | .rxfail _ => c.phase != some .fault && c.rdreq
  | .reset => true
  | .gstart => true
  | .gbyte _ => true
  | .gend => true

/-! ### The trace notation of the input events (R100), as ASCII bytes

PRESUMED: the notation's characters are read as their ASCII codes (log 13). -/

/-- Characters as bytes. -/
def ascii (cs : List Char) : List Byte := cs.map fun c => BitVec.ofNat 8 c.toNat

/-- The upper-case hexadecimal digit of a number below 16 (R100 `byte`). -/
def hexDigit (n : Nat) : Byte := if n < 10 then BitVec.ofNat 8 (0x30 + n) else BitVec.ofNat 8 (0x37 + n)

/-- The value of an upper-case hexadecimal digit. -/
def hexValue (c : Byte) : Option Nat :=
  let n := c.toNat
  if 0x30 ≤ n ∧ n ≤ 0x39 then some (n - 0x30)
  else if 0x41 ≤ n ∧ n ≤ 0x46 then some (n - 0x37)
  else none

/-- `byte ::= two hexadecimal digits, upper case` (R100), read. -/
def readByte : List Byte → Option (Byte × List Byte)
  | h :: l :: rest =>
    match hexValue h, hexValue l with
    | some x, some y => some (BitVec.ofNat 8 (16 * x + y), rest)
    | _, _ => none
  | _ => none

/-- `bytes ::= byte { " " byte }` (R100), read up to and including the closing parenthesis. -/
def readBytesClose : List Byte → Option (List Byte × List Byte)
  | h :: l :: sep :: rest =>
    match hexValue h, hexValue l with
    | some x, some y =>
      if sep = 0x29 then some ([BitVec.ofNat 8 (16 * x + y)], rest)
      else if sep = 0x20 then
        match readBytesClose rest with
        | some (bs, rest') => some (BitVec.ofNat 8 (16 * x + y) :: bs, rest')
        | none => none
      else none
    | _, _ => none
  | _ => none

/-- Remove the characters `kw` from the head of `s`. -/
def expect : List Byte → List Byte → Option (List Byte)
  | [], s => some s
  | _ :: _, [] => none
  | k :: kw, c :: s => if k = c then expect kw s else none

def kwReset : List Byte := ascii ['R', 'E', 'S', 'E', 'T']
def kwNext : List Byte := ascii ['N', 'E', 'X', 'T']
def kwRxchunk : List Byte := ascii ['R', 'X', 'C', 'H', 'U', 'N', 'K', '(']
def kwRxnodata : List Byte := ascii ['R', 'X', 'N', 'O', 'D', 'A', 'T', 'A']
def kwRxfailIo : List Byte := ascii ['R', 'X', 'F', 'A', 'I', 'L', '(', 'I', 'O', '_', 'E', 'R', 'R', 'O', 'R', ')']
def kwRxfailEos : List Byte := ascii ['R', 'X', 'F', 'A', 'I', 'L', '(', 'E', 'O', 'S', ')']
def kwGstart : List Byte := ascii ['G', 'S', 'T', 'A', 'R', 'T']
def kwGbyte : List Byte := ascii ['G', 'B', 'Y', 'T', 'E', '(']
def kwGend : List Byte := ascii ['G', 'E', 'N', 'D']

/-- A fixed text for an event without byte operands. -/
def readFixed (kw : List Byte) (e : InputEvent) (s : List Byte) : Option (InputEvent × List Byte) :=
  (expect kw s).map fun rest => (e, rest)

/-- `"GBYTE" "(" byte ")"` (R100). -/
def readGbyte (s : List Byte) : Option (InputEvent × List Byte) :=
  match (expect kwGbyte s).bind readByte with
  | some (b, sep :: rest) => if sep = 0x29 then some (.gbyte b, rest) else none
  | _ => none

/-- `"RXCHUNK" "(" bytes ")"` (R100). -/
def readRxchunk (s : List Byte) : Option (InputEvent × List Byte) :=
  ((expect kwRxchunk s).bind readBytesClose).map fun p => (.rxchunk p.1, p.2)

/-- `event` of R100: one of the eight forms, with the rest of the text. -/
def readEvent (s : List Byte) : Option (InputEvent × List Byte) :=
  readFixed kwReset .reset s <|> readFixed kwNext .next s <|> readRxchunk s <|> readFixed kwRxnodata .rxnodata s <|>
    readFixed kwRxfailIo (.rxfail .ioError) s <|> readFixed kwRxfailEos (.rxfail .eos) s <|>
    readFixed kwGstart .gstart s <|> readGbyte s <|> readFixed kwGend .gend s

/-- `event { ";" event }` of R100, with fuel: each event takes at least one character. -/
def readTraceFuel : Nat → List Byte → Option (List InputEvent)
  | 0, _ => none
  | n + 1, s =>
    match readEvent s with
    | some (e, []) => some [e]
    | some (e, sep :: rest) => if sep = 0x3B then (readTraceFuel n rest).map (e :: ·) else none
    | none => none

/-- The decoder of a whole trace text (R100): total on any bytes. -/
def readTrace (s : List Byte) : Option (List InputEvent) := readTraceFuel s.length s

/-! ### The decoder of bytes, by event class (R97) -/

/-- The event class of an input event. -/
def InputEvent.format : InputEvent → Format
  | .reset => .ctl
  | .next => .ctl
  | .rxchunk _ => .rx
  | .rxnodata => .rx
  | .rxfail _ => .rx
  | .gstart => .gen
  | .gbyte _ => .gen
  | .gend => .gen

/-- Read one operation of event class `f` from bytes in context `c`, with the bytes left over: a POP operation from the
byte stream of the backlog (R80, R95), an operation on a port from its trace notation (R100); POP itself takes no
operand from outside (R156). Total on any bytes; it rejects by name. -/
def decodeBytes (c : Ctx) (f : Format) (s : List Byte) : Except Reject (Instr × List Byte) :=
  match f with
  | .pop =>
    match s with
    | [] => .error .endOfBytes
    | b :: rest => (decode c (.byte b)).map (·, rest)
  | .internal => (decode c .pop).map (·, s)
  | _ =>
    match readEvent s with
    | none => .error .notAnEvent
    | some (e, rest) => if e.format = f then (decode c (.input e)).map (·, rest) else .error .wrongFormat

/-! ### The encoder -/

/-- `byte` of R100, written. -/
def writeByte (b : Byte) : List Byte := [hexDigit (b.toNat / 16), hexDigit (b.toNat % 16)]

/-- `bytes ::= byte { " " byte }` of R100, written, with the closing parenthesis. -/
def writeBytesClose : List Byte → List Byte
  | [] => [0x29]
  | [b] => writeByte b ++ [0x29]
  | b :: b' :: bs => writeByte b ++ 0x20 :: writeBytesClose (b' :: bs)

/-- `event` of R100, written. -/
def writeEvent : InputEvent → List Byte
  | .reset => kwReset
  | .next => kwNext
  | .rxchunk bs => kwRxchunk ++ writeBytesClose bs
  | .rxnodata => kwRxnodata
  | .rxfail .ioError => kwRxfailIo
  | .rxfail .eos => kwRxfailEos
  | .gstart => kwGstart
  | .gbyte b => kwGbyte ++ (writeByte b ++ [0x29])
  | .gend => kwGend

/-- `trace` of R100, written. -/
def writeTrace : List InputEvent → List Byte
  | [] => []
  | [e] => writeEvent e
  | e :: e' :: es => writeEvent e ++ 0x3B :: writeTrace (e' :: es)

/-- The encoder: the bytes `decodeBytes` reads an operation from. A framing operation is its one wire byte (R80); POP has
no operand (R156); an operation on a port is its event in the notation of R100. -/
def encode (i : Instr) : List Byte :=
  match i.event with
  | .byte b => [b]
  | .pop => []
  | .input e => writeEvent e

/-! ### The host's table words -/

/-- The context in which a word of spec/opcode_table.json is read: FS hunting, as after reset, with its byte at the head
of the backlog (log 12). -/
def tableCtx : Ctx := ⟨some .hunt, none, false, true⟩

/-- The byte a table word stands for: its first byte. -/
def tableByte (w : Nat) : Byte := BitVec.ofNat 8 w

/-- The operation the decoder reads from a table word: the word's first byte, taken by POP in phase HUNT (R95; log 12). A
word of more than one byte is refused, since no event carries one (R53). -/
def decodeTableWord (nbits w : Nat) : Option Instr :=
  if nbits ≤ 8 then
    match decodeBytes tableCtx .pop [tableByte w] with
    | .ok (i, _) => some i
    | .error _ => none
  else none

end Sys2Proof
end

