-- ==== Sys2Proof/Machine/State.lean ====
section
/-! DEFINITION. The state of the block (R20), the events that go in and come out (R90, R165), the reset state (R36), and the reasons a step can stop. -/

namespace Sys2Proof.Machine

/-- The flag FAULT and its three values NONE, IO_ERROR, EOS (R30). -/
inductive FaultFlag where
  /-- NONE. -/
  | none
  /-- IO_ERROR or EOS. -/
  | fatal (kind : FatalKind)
  deriving DecidableEq, Repr

/-- An output event (R90, R158, R159, R161). -/
inductive Output where
  /-- FRAME(bs) on the frame port. -/
  | frame (bs : List Byte)
  /-- FATAL(kind) on the frame port. -/
  | fatal (kind : FatalKind)
  /-- TX(b) on the TX port. -/
  | tx (b : Byte)
  deriving DecidableEq, Repr

/-- The codes of R171, symbolic names with no numbers (D11). -/
inductive Condition where
  /-- CHECKSUM_MISMATCH: a complete candidate does not fold to zero (R172). -/
  | checksumMismatch
  /-- FATAL_IO_ERROR: the transport reports a read error (R173). -/
  | fatalIoError
  /-- FATAL_EOS: the transport reports the end of the stream (R174). -/
  | fatalEos
  deriving DecidableEq, Repr

/-- When an arrival is taken, relative to FS's own POP steps (R160, D24). -/
inductive Moment where
  /-- Once FS has run to quiescence. -/
  | atRest
  /-- After `n` more POP steps, or once FS has run to quiescence if that is sooner. -/
  | afterPops (n : Nat)
  deriving DecidableEq, Repr

/-- Input events that reach the block together: `first` and whatever is offered at the same moment in `also` (R177 item 1,
U9), and when they come. DESIGN CHOICE (log 1, 2, 17): the environment's free choices as plain data. -/
structure Arrival where
  first : InputEvent
  also : List InputEvent
  moment : Moment
  deriving DecidableEq, Repr

/-- Whose turn it is: FS's own step, the next arriving event, or nobody's. -/
inductive Turn where
  /-- FS takes its POP step (R156); `rest` waits. -/
  | pop (rest : List Arrival)
  /-- Event `e` arrives; `rest` waits. -/
  | take (e : InputEvent) (rest : List Arrival)
  /-- Nothing arrives and POP is not enabled: a hold of R163. -/
  | hold
  deriving DecidableEq, Repr

/-- The state: the seven items of FS and the one of GEN (R20), then what the model keeps of the events (log 1, 3, 4). -/
structure State where
  /-- BUF: the cells that hold a value, by index, indices rising (R21). -/
  buf : List Host.Cell
  /-- CNT, 9 bits (R22). -/
  cnt : Count
  /-- LEN, valid while CNT ≥ 5 (R23); read it through `State.lenValue`. -/
  len : Byte
  /-- ACC, valid while CNT ≥ 1 (R26); read it through `State.accValue`. -/
  acc : Byte
  /-- RXQ, oldest byte first (R27). -/
  rxq : List Byte
  /-- DEMAND (R29). -/
  demand : Bool
  /-- FAULT (R30). -/
  fault : FaultFlag
  /-- GACC (R31). -/
  gacc : Byte
  /-- The output events so far, oldest first (R165). The model's own (log 3). -/
  out : List Output
  /-- The framing operations performed so far, oldest first (R172). The model's own (log 4). -/
  ops : List OpName
  /-- The input events still to come, oldest first (R17, R100). The model's own (log 1). -/
  pending : List Arrival
  deriving DecidableEq, Repr

/-- The state after RESET and at power-up (R36, R190). DESIGN CHOICE, unsafe (log 5): LEN and ACC hold no value there and
no reader can see the 0x00 written here. DESIGN CHOICE (log 1, 3, 4): nothing has come out and nothing is pending. -/
def State.reset : State where
  buf := []
  cnt := 0
  len := 0x00
  acc := 0x00
  rxq := []
  demand := false
  fault := .none
  gacc := Config.seed
  out := []
  ops := []
  pending := []

/-- Why a step stops. None of these is a condition of the block (R171): each is a step the spec does not give. -/
inductive Fault where
  /-- Raised by RXCHUNK, RXNODATA and RXFAIL, and by `step`, for an RX event while RDREQ = 0: "not admitted", stuck
  (R151, U4). Safe (log 8). -/
  | rxNotAdmitted
  /-- Raised by RXCHUNK for a list of no bytes or of more than RX_CHUNK_MAX: not an admitted event (R90, R153, U4).
  Safe (log 8). -/
  | rxBadChunk
  /-- Raised by POP where it is not enabled (R156). `step` never asks for it there. Safe (log 9). -/
  | popNotEnabled
  /-- Raised by the framing operations where R95 does not select them or POP is not enabled for them. POP never asks for
  one there. Safe (log 9). -/
  | notSelected
  /-- Raised by POP where CNT stands beyond the checksum position, a state R24 gives no phase and R32 rules out.
  Safe (log 10). -/
  | noPhase
  /-- Raised by a read of a BUF cell or of ACC that holds no value (R37, U1). Safe (log 5, 6). -/
  | noValue
  /-- Raised by a write of BUF at an index above 260 (R13); no operation does one (R144). Safe (log 6). -/
  | bufIndex
  deriving DecidableEq, Repr

/-- Why an instruction has no meaning. -/
inductive Refusal where
  /-- Raised by an arm of `exec` whose instruction has no meaning yet; no arm raises it. Safe. -/
  | notModelled (mnemonic : String)
  deriving DecidableEq, Repr

/-- What an operation answers. -/
abbrev Answer := Host.Outcome State Fault Refusal

end Sys2Proof.Machine
end

