-- ==== Sys2Proof/Machine/Flags.lean ====
section
/-! DEFINITION. The flags and the signals computed from the state: RDREQ (R151), "POP is enabled" (R156), the zero test (R30, R136). -/

namespace Sys2Proof.Machine

/-- FAULT = NONE (R30). -/
def State.faultFree (s : State) : Bool := s.fault == .none

/-- RDREQ = 1 exactly when DEMAND = 1 and FAULT = NONE and RXQ is empty (R151). -/
def State.rdreq (s : State) : Bool := s.demand && s.faultFree && s.rxq.isEmpty

/-- POP is enabled when DEMAND = 1 and FAULT = NONE and RXQ is not empty (R156). -/
def State.popReady (s : State) : Bool := s.demand && s.faultFree && !s.rxq.isEmpty

/-- The zero test of the CHK part, ACC xor b = 0 (R130, R136): used and not stored (R30). -/
def foldsToZero (a b : Byte) : Bool := a ^^^ b == 0x00

/-- DEMAND <- 1 (R152). -/
def State.setDemand (s : State) : State := { s with demand := true }

/-- DEMAND <- 0 (R137, R155). -/
def State.clearDemand (s : State) : State := { s with demand := false }

/-- FAULT <- kind (R155). -/
def State.setFault (k : FatalKind) (s : State) : State := { s with fault := .fatal k }

end Sys2Proof.Machine
end

