-- ==== Sys2Proof/Machine/Operands.lean ====
section
/-! DEFINITION. What the operations read: zext_9 and the checksum position (R13, R82), the phase (R24), LEN and ACC where they are valid (R23, R26), and the context of dispatch (R95). -/

namespace Sys2Proof.Machine

/-- zext_9, the only extension the block performs (R13). -/
def zext9 (b : Byte) : Count := b.setWidth 9

/-- 5 + zext_9(LEN), formed in 9 bits: the index of the checksum byte (R24, R82, R144). -/
def checksumAt (l : Byte) : Count := 5 + zext9 l

/-- The phase (R24). None where CNT > 5 + LEN, for which R24 names none and which R32 rules out. DESIGN CHOICE (log 10). -/
def State.phase (s : State) : Option Phase :=
  if s.fault ≠ .none then some .fault
  else if s.cnt = 0 then some .hunt
  else if s.cnt ≤ 3 then some .header
  else if s.cnt = 4 then some .length
  else if s.cnt < checksumAt s.len then some .payload
  else if s.cnt = checksumAt s.len then some .checksum
  else none

/-- LEN where it holds a value, CNT ≥ 5 (R20, R23). -/
def State.lenValue (s : State) : Option Byte := if 5 ≤ s.cnt then some s.len else none

/-- ACC where it holds a value, CNT ≥ 1 (R20, R26). -/
def State.accValue (s : State) : Option Byte := if s.cnt = 0 then none else some s.acc

/-- What dispatch reads of the state (R95). -/
def State.ctx (s : State) : Ctx := ⟨s.phase, s.accValue, s.rdreq, s.popReady⟩

/-- Is FS in phase `p` with POP's demand outstanding? The enabling all framing operations share (41_rx_framing.md), RXQ
apart, from which POP has already taken the byte. DEDUCED (log 9). -/
def State.framingIn (s : State) (p : Phase) : Bool := s.demand && s.phase == some p

/-- The byte an RXCHUNK operand may have: 1 to RX_CHUNK_MAX of them (R90, R153). -/
def chunkAdmitted (bs : List Byte) : Bool := decide (1 ≤ bs.length) && decide (bs.length ≤ Config.rxChunkMax)

end Sys2Proof.Machine
end

