-- ==== Sys2Proof/Machine/Ops.lean ====
section
/-! DEFINITION. The named operations over BUF, the registers, the backlog and the ports, the entry to the fatal state and the return from it. -/

namespace Sys2Proof.Machine

/-! ### BUF (R21, R50, R65): cells by index, in one canonical form -/

/-- The byte a cell list holds at index `i`; no value where none is listed (R21, R37; log 6). -/
def Buf.read : List Host.Cell → Nat → Option Byte
  | [], _ => none
  | (x, v) :: m, i => if x = i then some v else Buf.read m i

/-- The cell list with byte `b` at index `i`, indices still rising. -/
def Buf.write : List Host.Cell → Nat → Byte → List Host.Cell
  | [], i, b => [(i, b)]
  | (x, v) :: m, i, b =>
    if i < x then (i, b) :: (x, v) :: m
    else if i = x then (i, b) :: m
    else (x, v) :: Buf.write m i b

/-- `BUF[i] <- b`, legal only for 0 ≤ i ≤ 260 (R13). -/
def Buf.store (m : List Host.Cell) (i : Nat) (b : Byte) : Option (List Host.Cell) :=
  if i < Config.bufCap then some (Buf.write m i b) else none

/-- `BUF[0 .. n-1]`, the one load form (R65): every cell must hold a value. -/
def Buf.block (m : List Host.Cell) : Nat → Option (List Byte)
  | 0 => some []
  | n + 1 =>
    match Buf.block m n, Buf.read m n with
    | some bs, some b => some (bs ++ [b])
    | _, _ => none

/-- Are all indices at least `lo`, strictly rising and below BUF_CAP? -/
def Buf.wfFrom : Nat → List Host.Cell → Bool
  | _, [] => true
  | lo, (x, _) :: m => decide (lo ≤ x) && decide (x < Config.bufCap) && Buf.wfFrom (x + 1) m

/-- The canonical form of BUF: indices strictly rising, all in 0 to 260 (R21). An unlisted cell holds no value, so every
listed one differs from it. -/
def Buf.wf (m : List Host.Cell) : Bool := Buf.wfFrom 0 m

/-- BUF[i] as the block may read it: only for i < CNT (R13, R21). -/
def State.bufValue (s : State) (i : Nat) : Option Byte :=
  if i < s.cnt.toNat then Buf.read s.buf i else none

/-- The bytes of the candidate, BUF[0 .. CNT-1] (R16, R21). -/
def State.candidate (s : State) : Option (List Byte) := Buf.block s.buf s.cnt.toNat

/-! ### Answers -/

/-- Go on with the next state, or stop as before. -/
def andThen (o : Answer) (f : State → Answer) : Answer :=
  match o with
  | .next s => f s
  | .fault r => .fault r
  | .refused r => .refused r

/-- The state of an answer that goes on. -/
def nextOf (o : Answer) : Option State :=
  match o with
  | .next s => some s
  | .fault _ => none
  | .refused _ => none

/-- The fault of an answer that stops with one. -/
def faultOf (o : Answer) : Option Fault :=
  match o with
  | .next _ => none
  | .fault r => some r
  | .refused _ => none

/-- The fault under which a rejected event stops (R95, R151, R156). -/
def faultOfReject : Reject → Fault
  | .byteWithoutPhase => .noPhase
  | .rxNotAdmitted => .rxNotAdmitted
  | .popNotEnabled => .popNotEnabled
  | .notAnEvent => .notSelected
  | .wrongFormat => .notSelected
  | .endOfBytes => .notSelected

/-! ### Ports and logs -/

/-- Emit an output event (R13 `emit`). -/
def State.emit (o : Output) (s : State) : State := { s with out := s.out ++ [o] }

/-- Note a framing operation in the model's own trace of operations (R172; log 4). -/
def State.note (op : OpName) (s : State) : State := { s with ops := s.ops ++ [op] }

/-! ### The backlog (R27) -/

/-- `RXQ.push(bs)`: append at the tail (R153). -/
def State.pushRx (bs : List Byte) (s : State) : State := { s with rxq := s.rxq ++ bs }

/-- `RXQ.pop()`: the oldest byte and the state without it (R156). -/
def State.popRx (s : State) : Option (Byte × State) :=
  match s.rxq with
  | [] => none
  | b :: rest => some (b, { s with rxq := rest })

/-! ### The candidate -/

/-- The registers after a byte has been stored in cell list `m` with fold `a`. -/
def State.gather (m : List Host.Cell) (a : Byte) (s : State) : State :=
  { s with buf := m, acc := a, cnt := s.cnt + 1 }

/-- The one store form of the block (R65): `BUF[CNT] <- b; ACC <- ACC xor b; CNT <- CNT + 1` (R133 to R136). -/
def storeFold (b : Byte) (s : State) : Answer :=
  match s.accValue, Buf.store s.buf s.cnt.toNat b with
  | some a, some m => .next (s.gather m (a ^^^ b))
  | none, _ => .fault .noValue
  | some _, none => .fault .bufIndex

/-- `BUF[0] <- 0xAA; ACC <- 0x55 xor 0xAA; CNT <- 1` (R132). -/
def State.startCandidate (s : State) : State :=
  { s with buf := Buf.write s.buf 0 Config.sentinel, acc := Config.seed ^^^ Config.sentinel, cnt := 1 }

/-- `LEN <- b` (R134). -/
def State.latchLen (b : Byte) (s : State) : State := { s with len := b }

/-- `CNT <- 0`: there is no candidate, and the cells of BUF hold no value (R21, R22, R37). LEN and ACC hold none either:
their readers find none while CNT = 0 (log 5). -/
def State.endCandidate (s : State) : State := { s with cnt := 0, buf := [] }

/-! ### The generator's register -/

/-- `GACC <- v` (R118 to R120). -/
def State.setGacc (v : Byte) (s : State) : State := { s with gacc := v }

/-! ### Entry to the fatal state, and the return from it -/

/-- Entry to the fatal state (R155, R178): FAULT takes the kind, the partial candidate is discarded, DEMAND becomes 0, and
one FATAL(kind) is reported. Nothing is saved. -/
def State.enterFatal (k : FatalKind) (s : State) : State :=
  (((s.setFault k).endCandidate).clearDemand).emit (.fatal k)

/-- The fatal kind of a condition; CHECKSUM_MISMATCH has none, it is recovered inside the block (R171, R172). -/
def Condition.fatal : Condition → Option FatalKind
  | .checksumMismatch => none
  | .fatalIoError => some .ioError
  | .fatalEos => some .eos

/-- The code under which RXFAIL's kind is raised (R171). -/
def conditionOf : FatalKind → Condition
  | .ioError => .fatalIoError
  | .eos => .fatalEos

/-- A condition is raised (R171): a fatal one enters the fatal state, recorded and reported (R178); CHECKSUM_MISMATCH ends
the candidate, with nothing recorded and nothing reported (R172, R179). -/
def State.raise (c : Condition) (s : State) : State :=
  match c.fatal with
  | none => s.endCandidate
  | some k => s.enterFatal k

/-- The condition an operation raises (R171, third column). POP raises what the operation it performs raises. -/
def raises : Instr → Option Condition
  | .sync => none
  | .skip _ => none
  | .hdr _ => none
  | .len _ => none
  | .pay _ => none
  | .accept _ => none
  | .drop _ => some .checksumMismatch
  | .pop => none
  | .next => none
  | .rxchunk _ => none
  | .rxnodata => none
  | .rxfail k => some (conditionOf k)
  | .reset => none
  | .gstart => none
  | .gbyte _ => none
  | .gend => none

/-- The return from the fatal state, and from any other (R157, R180): the reset state of R36. What has come out and what is
still to come are not the block's (log 1, 3, 4). -/
def State.resetBlock (s : State) : State :=
  { s with buf := [], cnt := 0, rxq := [], demand := false, fault := .none, gacc := Config.seed }

end Sys2Proof.Machine
end

