-- ==== Sys2Proof/Machine/Generator.lean ====
section
/-! DEFINITION. The generator operations (40_checksum.md): GSTART, GBYTE, GEND. Always enabled, in every phase (R118 to R120, R178). -/

namespace Sys2Proof.Machine

/-- GSTART (R118). -/
def execGstart (s : State) : Answer := .next (s.setGacc Config.seed)

/-- GBYTE (R119): the byte is folded in and passed through. -/
def execGbyte (b : Byte) (s : State) : Answer := .next ((s.setGacc (s.gacc ^^^ b)).emit (.tx b))

/-- GEND (R120): the checksum byte is emitted and GACC seeded again. -/
def execGend (s : State) : Answer := .next ((s.emit (.tx s.gacc)).setGacc Config.seed)

end Sys2Proof.Machine
end

