-- ==== Sys2Proof/Machine/Framing.lean ====
section
/-! DEFINITION. The seven framing operations (41_rx_framing.md): SYNC, SKIP, HDR, LEN, PAY, ACCEPT, DROP. -/

namespace Sys2Proof.Machine

/-- SYNC (R132). -/
def execSync (s : State) : Answer :=
  if s.framingIn .hunt then .next (s.startCandidate.note .sync) else .fault .notSelected

/-- SKIP (R131): the byte is discarded; no state of the block changes. -/
def execSkip (b : Byte) (s : State) : Answer :=
  if s.framingIn .hunt && b != Config.sentinel then .next (s.note .skip) else .fault .notSelected

/-- HDR (R133). -/
def execHdr (b : Byte) (s : State) : Answer :=
  if s.framingIn .header then andThen (storeFold b s) fun t => .next (t.note .hdr) else .fault .notSelected

/-- LEN (R134): CNT = 4, so the store is at index 4 and CNT becomes 5. -/
def execLen (b : Byte) (s : State) : Answer :=
  if s.framingIn .length then andThen (storeFold b s) fun t => .next ((t.latchLen b).note .len)
  else .fault .notSelected

/-- PAY (R135). -/
def execPay (b : Byte) (s : State) : Answer :=
  if s.framingIn .payload then andThen (storeFold b s) fun t => .next (t.note .pay) else .fault .notSelected

/-- ACCEPT (R136, R137): after the common part, emit the whole buffer, clear CNT, clear DEMAND. -/
def execAccept (b : Byte) (s : State) : Answer :=
  if s.framingIn .checksum && foldsToZero s.acc b then
    andThen (storeFold b s) fun t =>
      match t.candidate with
      | some f => .next ((((t.emit (.frame f)).endCandidate).clearDemand).note .accept)
      | none => .fault .noValue
  else .fault .notSelected

/-- DROP (R136, R138): after the common part CHECKSUM_MISMATCH is raised (R171): CNT is cleared, nothing is emitted and
DEMAND stays. -/
def execDrop (b : Byte) (s : State) : Answer :=
  if s.framingIn .checksum && !foldsToZero s.acc b then
    andThen (storeFold b s) fun t => .next ((t.raise .checksumMismatch).note .drop)
  else .fault .notSelected

end Sys2Proof.Machine
end

