-- ==== Sys2Proof/Machine/Port.lean ====
section
/-! DEFINITION. The port, control and internal operations (42_port_ops.md): NEXT, RXCHUNK, RXNODATA, RXFAIL, POP, RESET. -/

namespace Sys2Proof.Machine

/-- Perform the framing operation that R130 selects. The nine operations that are no framing operation are never selected
by a byte (R95). -/
def perform : Instr → State → Answer
  | .sync, s => execSync s
  | .skip b, s => execSkip b s
  | .hdr b, s => execHdr b s
  | .len b, s => execLen b s
  | .pay b, s => execPay b s
  | .accept b, s => execAccept b s
  | .drop b, s => execDrop b s
  | .pop, _ => .fault .notSelected
  | .next, _ => .fault .notSelected
  | .rxchunk _, _ => .fault .notSelected
  | .rxnodata, _ => .fault .notSelected
  | .rxfail _, _ => .fault .notSelected
  | .reset, _ => .fault .notSelected
  | .gstart, _ => .fault .notSelected
  | .gbyte _, _ => .fault .notSelected
  | .gend, _ => .fault .notSelected

/-- POP (R156): the oldest byte leaves RXQ and the operation R130 selects for (phase, b) is performed, as one step. -/
def execPop (s : State) : Answer :=
  if s.popReady then
    match s.popRx with
    | some (b, t) =>
      match decode s.ctx (.byte b) with
      | .ok i => perform i t
      | .error r => .fault (faultOfReject r)
    | none => .fault .popNotEnabled
  else .fault .popNotEnabled

/-- NEXT (R152): in phase FAULT the recorded fault is reported again; otherwise DEMAND is set. -/
def execNext (s : State) : Answer :=
  match s.fault with
  | .fatal k => .next (s.emit (.fatal k))
  | .none => .next s.setDemand

/-- RXCHUNK (R153): the read result enters the (empty) backlog. -/
def execRxchunk (bs : List Byte) (s : State) : Answer :=
  if s.rdreq then
    if chunkAdmitted bs then .next (s.pushRx bs) else .fault .rxBadChunk
  else .fault .rxNotAdmitted

/-- RXNODATA (R154): no state change. -/
def execRxnodata (s : State) : Answer :=
  if s.rdreq then .next s else .fault .rxNotAdmitted

/-- RXFAIL (R155): FATAL_IO_ERROR or FATAL_EOS is raised (R171). -/
def execRxfail (k : FatalKind) (s : State) : Answer :=
  if s.rdreq then .next (s.raise (conditionOf k)) else .fault .rxNotAdmitted

/-- RESET (R157): always enabled, overrides whatever the block was doing. -/
def execReset (s : State) : Answer := .next s.resetBlock

end Sys2Proof.Machine
end

