-- ==== Sys2Proof/Machine/Dispatch.lean ====
section
/-! DEFINITION. One arm per operation, each one call of its meaning. -/

namespace Sys2Proof.Machine

def exec (i : Instr) (s : State) : Host.Outcome State Fault Refusal :=
  match i with
  | .sync => Sys2Proof.Machine.execSync s
  | .skip b => Sys2Proof.Machine.execSkip b s
  | .hdr b => Sys2Proof.Machine.execHdr b s
  | .len b => Sys2Proof.Machine.execLen b s
  | .pay b => Sys2Proof.Machine.execPay b s
  | .accept b => Sys2Proof.Machine.execAccept b s
  | .drop b => Sys2Proof.Machine.execDrop b s
  | .pop => Sys2Proof.Machine.execPop s
  | .next => Sys2Proof.Machine.execNext s
  | .rxchunk bs => Sys2Proof.Machine.execRxchunk bs s
  | .rxnodata => Sys2Proof.Machine.execRxnodata s
  | .rxfail kind => Sys2Proof.Machine.execRxfail kind s
  | .reset => Sys2Proof.Machine.execReset s
  | .gstart => Sys2Proof.Machine.execGstart s
  | .gbyte b => Sys2Proof.Machine.execGbyte b s
  | .gend => Sys2Proof.Machine.execGend s

end Sys2Proof.Machine
end

