-- ==== Sys2Proof/Machine/Fetch.lean ====
section
/-! DEFINITION. Which event the next step reacts to (R17, R160, R177), how a trace is loaded (R100), and where the host's table word is placed. -/

namespace Sys2Proof.Machine

/-- Is the arrival to be taken before the next POP? -/
def Arrival.due (a : Arrival) : Bool := a.moment == .afterPops 0

/-- The arrival after one POP more. -/
def Arrival.countPop (a : Arrival) : Arrival :=
  match a.moment with
  | .atRest => a
  | .afterPops n => { a with moment := .afterPops (n - 1) }

/-- Take an event from the arrival `a`, `rest` waiting behind it: RESET wins and whatever was offered with it is lost
(R177 item 1); otherwise events offered together are taken in the listed order (U9; log 17). -/
def takeArrival (a : Arrival) (rest : List Arrival) : Turn :=
  if a.first = .reset ∨ .reset ∈ a.also then .take .reset rest
  else
    match a.also with
    | [] => .take a.first rest
    | e :: es => .take a.first (⟨e, es, a.moment⟩ :: rest)

/-- Whose turn it is. FS takes its POP steps eagerly, but for an arrival whose moment has come. With no POP enabled and
nothing to come the block holds (R163; log 11). DESIGN CHOICE (log 2): R160 and D24 leave it to the model whether an event,
a RESET above all (R208), can come between two POP steps; here it can, between any two, and `Arrival.moment` says where. -/
def State.turn (s : State) : Turn :=
  match s.pending with
  | [] => if s.popReady then .pop [] else .hold
  | a :: rest => if s.popReady && !a.due then .pop (a.countPop :: rest) else takeArrival a rest

/-- The state with the events of a trace still to come, one after another, each after FS has run to quiescence (R100). -/
def State.load (es : List InputEvent) (s : State) : State :=
  { s with pending := es.map fun e => ⟨e, [], .atRest⟩ }

/-- The arrivals with one POP more before the first of them. -/
def addPop : List Arrival → List Arrival
  | [] => []
  | a :: rest =>
    match a.moment with
    | .atRest => a :: rest
    | .afterPops n => { a with moment := .afterPops (n + 1) } :: rest

/-- The arrivals under which steps perform the events `es` one by one, whatever their interleaving (R17, R160; log 2). A
byte is no event of its own, since POP takes it (R95). -/
def schedule : List Event → List Arrival
  | [] => []
  | .input e :: es => ⟨e, [], .afterPops 0⟩ :: schedule es
  | .pop :: es => addPop (schedule es)
  | .byte _ :: es => schedule es

/-- The state in which FS hunts with byte `b` at the head of the backlog and a demand outstanding, so that the next step is
the POP that examines `b` (log 12). -/
def State.placeByte (b : Byte) (s : State) : State :=
  { s with buf := [], cnt := 0, rxq := b :: s.rxq, demand := true, fault := .none, pending := [] }

end Sys2Proof.Machine
end

