-- ==== Sys2Proof/Machine/Step.lean ====
section
/-! DEFINITION. One step: the event whose turn it is selects an operation, which is performed (R3, R19, R95). -/

namespace Sys2Proof.Machine

/-- The block's reaction to event `e`: the operation R95 selects, or a stop under the name of the rejection. -/
def react (e : Event) (s : State) : Host.Outcome State Fault Refusal :=
  match decode s.ctx e with
  | .ok i => exec i s
  | .error r => .fault (faultOfReject r)

/-- One step of the machine (R19: one step is one event). A hold changes nothing (R163; log 11). -/
def step (s : State) : Host.Outcome State Fault Refusal :=
  match s.turn with
  | .pop rest => react .pop { s with pending := rest }
  | .take e rest => react (.input e) { s with pending := rest }
  | .hold => .next s

/-- The state whose next step runs the operation of a table word: the word's byte is the one POP examines (log 12). -/
def State.withFetchWord (s : State) (_nbits w : Nat) : State := s.placeByte (tableByte w)

end Sys2Proof.Machine
end

