-- ==== Sys2Proof/Machine/Checksum.lean ====
section
/-! DEFINITION. The three functions of the checksum unit CK: fold, compute, verify (R110 to R112). -/

namespace Sys2Proof.Machine

/-- `fold(a, s)`, the left fold of exclusive-or over `s` from `a` (R110). -/
def fold : Byte → List Byte → Byte
  | a, [] => a
  | a, b :: t => fold (a ^^^ b) t

/-- `compute(s) = fold(0x55, s)` (R111). -/
def compute (s : List Byte) : Byte := fold Config.seed s

/-- `verify(s)`: the fold over all of `s`, its last byte included, is zero (R112). -/
def verify (s : List Byte) : Bool := compute s == 0x00

end Sys2Proof.Machine
end

