-- ==== Sys2Proof/Machine/Wire.lean ====
section
/-! DEFINITION. The wire frame format (R80 to R84), SEAL, MKFRAME, REQ and RX (R101, R121), and the fields of a frame. -/

namespace Sys2Proof.Machine

/-- `WF(f)`: the byte list is block-valid (R84). -/
def blockValid (f : List Byte) : Bool :=
  decide (6 ≤ f.length) && f[0]? == some Config.sentinel && f[4]?.map (·.toNat) == some (f.length - Config.overhead) &&
    verify f

/-- Protocol-valid: block-valid, byte 3 = 0xF4, a request or response class, and a payload (R84). The block neither
requires nor guarantees it (R85). -/
def protocolValid (f : List Byte) : Bool :=
  blockValid f && f[3]? == some 0xF4 && (f[1]? == some 0x22 || f[1]? == some 0x62) && decide (7 ≤ f.length)

/-- `SEAL(body)` as a byte list: the checksum byte appended (R83, R101). -/
def sealBytes (body : List Byte) : List Byte := body ++ [compute body]

/-- `SEAL(body)` as events: GSTART, one GBYTE a byte, GEND (R101, R121). -/
def sealEvents (body : List Byte) : List InputEvent := .gstart :: body.map .gbyte ++ [.gend]

/-- A frame by its fields (R80). The sentinel, the length byte and the checksum byte follow from them. -/
structure WireFrame where
  cls : Byte
  address : Byte
  fixed : Byte
  payload : List Byte
  deriving DecidableEq, Repr

/-- The bytes before the checksum (R80 offsets 0 to 4 + N). -/
def WireFrame.body (w : WireFrame) : List Byte :=
  [Config.sentinel, w.cls, w.address, w.fixed, BitVec.ofNat 8 w.payload.length] ++ w.payload

/-- The frame as bytes (R80, R83). -/
def WireFrame.bytes (w : WireFrame) : List Byte := sealBytes w.body

/-- A payload fits when its length is a length byte's value (R81). -/
def WireFrame.fits (w : WireFrame) : Bool := decide (w.payload.length ≤ Config.nMax)

/-- The fields of a block-valid list (R80, R82): payload byte j stands at offset 5 + j. -/
def readFrame (f : List Byte) : Option WireFrame :=
  match f with
  | _ :: c :: a :: x :: _ :: rest => if blockValid f then some ⟨c, a, x, rest.dropLast⟩ else none
  | _ => none

/-- `MKFRAME(cls, adr, p)` (R101). -/
def mkFrame (cls adr : Byte) (p : List Byte) : List Byte := WireFrame.bytes ⟨cls, adr, 0xF4, p⟩

/-- `REQ(adr, fid)`: the source's request frame (R87, R101). -/
def reqFrame (adr fid : Byte) : List Byte := mkFrame 0x22 adr [fid, 0x00, 0x00]

/-- The bytes a sequence of RX events delivers, where it is one of chunks RXCHUNK admits (R90, R153) in which every
RXNODATA has an event behind it; else none. -/
def rxBytes : List InputEvent → Option (List Byte)
  | [] => some []
  | .rxchunk bs :: es => if chunkAdmitted bs then (rxBytes es).map (bs ++ ·) else none
  | .rxnodata :: es => if es = [] then none else rxBytes es
  | .reset :: _ => none
  | .next :: _ => none
  | .rxfail _ :: _ => none
  | .gstart :: _ => none
  | .gbyte _ :: _ => none
  | .gend :: _ => none

/-- `RX(bs)`: RXCHUNK events, each of 1 to RX_CHUNK_MAX bytes, whose operands concatenate to `bs`, with RXNODATA events
between them only (R101). -/
def isRx (bs : List Byte) (es : List InputEvent) : Bool := es.head? != some .rxnodata && rxBytes es == some bs

end Sys2Proof.Machine
end

