-- ==== Sys2Proof/Machine/Runs.lean ====
section
/-! DEFINITION. Runs: to quiescence (R160), of a trace (R100), of an eager consumer (R141), and `scan` (R141); the output streams of R50. -/

namespace Sys2Proof.Machine

/-! ### The output streams (R50) -/

/-- The FRAME stream. -/
def framesOf : List Output → List (List Byte)
  | [] => []
  | .frame f :: o => f :: framesOf o
  | .fatal _ :: o => framesOf o
  | .tx _ :: o => framesOf o

/-- The FATAL events. -/
def fatalsOf : List Output → List FatalKind
  | [] => []
  | .frame _ :: o => fatalsOf o
  | .fatal k :: o => k :: fatalsOf o
  | .tx _ :: o => fatalsOf o

/-- The TX stream. -/
def txOf : List Output → List Byte
  | [] => []
  | .frame _ :: o => txOf o
  | .fatal _ :: o => txOf o
  | .tx b :: o => b :: txOf o

/-! ### Runs -/

/-- The input events `es` in order, with no POP between. -/
def reactAll : List InputEvent → State → Answer
  | [], s => .next s
  | e :: es, s => andThen (react (.input e) s) (reactAll es)

/-- The events `es` in order, FS's own POP steps among them (R142, R160). -/
def reactEvents : List Event → State → Answer
  | [], s => .next s
  | e :: es, s => andThen (react e s) (reactEvents es)

/-- The bytes the read results among `es` deliver, in order (R142). -/
def delivered : List Event → List Byte
  | [] => []
  | .input (.rxchunk bs) :: es => bs ++ delivered es
  | .input _ :: es => delivered es
  | .pop :: es => delivered es
  | .byte _ :: es => delivered es

/-- Events of a run in which the stream goes on: all but RESET and RXFAIL (R142). A byte is no event of its own here, since
POP takes it (R95). -/
def staysInStream : Event → Bool
  | .pop => true
  | .byte _ => false
  | .input .reset => false
  | .input .next => true
  | .input (.rxchunk _) => true
  | .input .rxnodata => true
  | .input (.rxfail _) => false
  | .input .gstart => true
  | .input (.gbyte _) => true
  | .input .gend => true

/-- At most `n` POP steps while POP is enabled. -/
def quiesceFuel : Nat → State → Answer
  | 0, s => .next s
  | n + 1, s => if s.popReady then andThen (react .pop s) (quiesceFuel n) else .next s

/-- FS run to quiescence (R160): each POP takes a byte of RXQ, so |RXQ| steps are enough. -/
def quiesce (s : State) : Answer := quiesceFuel s.rxq.length s

/-- A trace applied left to right, FS run to quiescence after each event (R100, R160). -/
def applyTrace : List InputEvent → State → Answer
  | [], s => .next s
  | e :: es, s => andThen (andThen (react (.input e) s) quiesce) (applyTrace es)

/-- At most `n` bytes of RXQ examined, a NEXT issued before each (an eager consumer, R141). -/
def drainFuel : Nat → State → Answer
  | 0, s => .next s
  | n + 1, s =>
    if s.rxq = [] then .next s
    else andThen (react (.input .next) s) fun t => andThen (react .pop t) (drainFuel n)

/-- All of RXQ examined, for an eager consumer. -/
def drain (s : State) : Answer := drainFuel s.rxq.length s

/-- The answer of one transport read: no bytes is RXNODATA, else RXCHUNK (R90). -/
def readResult (bs : List Byte) : InputEvent := if bs = [] then .rxnodata else .rxchunk bs

/-- The read results `cs` one after another, for an eager consumer: NEXT, the read, then all of RXQ examined. -/
def feed : List (List Byte) → State → Answer
  | [], s => .next s
  | c :: cs, s =>
    andThen (react (.input .next) s) fun t => andThen (react (.input (readResult c)) t) fun u => andThen (drain u) (feed cs)

/-! ### `scan` (R141) -/

/-- The loop of R141 over the bytes not yet examined: skip to a sentinel, take 6 + N bytes, keep them if they fold to zero.
Each turn takes at least one byte, so `n` = their number is enough (log 18). -/
def scanFuel : Nat → List Byte → List (List Byte) × List Byte
  | 0, s => ([], s)
  | _ + 1, [] => ([], [])
  | n + 1, b :: t =>
    if b ≠ Config.sentinel then scanFuel n t
    else
      match (b :: t)[4]? with
      | none => ([], b :: t)
      | some l =>
        if (b :: t).length < 6 + l.toNat then ([], b :: t)
        else
          let f := (b :: t).take (6 + l.toNat)
          let r := scanFuel n ((b :: t).drop (6 + l.toNat))
          if fold Config.seed f = 0x00 then (f :: r.1, r.2) else r

/-- `scan(s)`: the frames FS emits for `s`, and the bytes of the incomplete candidate left in BUF (R141). -/
def scan (s : List Byte) : List (List Byte) × List Byte := scanFuel s.length s

end Sys2Proof.Machine
end

