-- ==== Sys2Proof/Safety.lean ====
section
/-! DEFINITION. The invariants of R32, and the events the environment may offer (R164). -/

namespace Sys2Proof.Machine

/-- The state invariants of R32 that do not speak of RXQ_DEPTH, items 1, 2, 3, 5 and 6, with the form of BUF (R21). -/
structure State.Framed (s : State) : Prop where
  /-- Item 1. -/
  count : s.cnt.toNat ≤ 260
  /-- R21: BUF is in its canonical form. -/
  form : Buf.wf s.buf = true
  /-- R20, R21: exactly the cells 0 to CNT - 1 hold a value. -/
  cells : s.buf.map Prod.fst = List.range s.cnt.toNat
  /-- Item 2. -/
  length : 5 ≤ s.cnt → Buf.read s.buf 4 = some s.len ∧ s.cnt ≤ checksumAt s.len
  /-- Item 3, the sentinel. -/
  sentinel : s.cnt ≠ 0 → Buf.read s.buf 0 = some Config.sentinel
  /-- Item 3, the accumulator. -/
  accumulator : s.cnt ≠ 0 → s.candidate.map compute = some s.acc
  /-- Item 5. -/
  idle : s.demand = false → s.cnt = 0
  /-- Item 6. -/
  stopped : s.fault ≠ .none → s.cnt = 0 ∧ s.rxq = [] ∧ s.demand = false

/-- The state invariants of R32, items 1 to 6. Item 7 holds of states in which FS has run to quiescence, not of every state
between two POP steps; it is `State.quiet`. -/
structure State.Inv (s : State) : Prop extends State.Framed s where
  /-- Item 4. -/
  backlog : s.rxq.length ≤ Config.rxqDepth

/-- Item 7 of R32, at rest: POP is not enabled. -/
def State.quiet (s : State) : Bool := !s.popReady

/-- The RX events, which the transport may offer only while RDREQ = 1 (R151, R164). -/
def isRxEvent : InputEvent → Bool
  | .rxchunk _ => true
  | .rxnodata => true
  | .rxfail _ => true
  | .reset => false
  | .next => false
  | .gstart => false
  | .gbyte _ => false
  | .gend => false

/-- An input event the environment may offer in state `s` (R151, R153, R164). -/
def admitted (s : State) (e : InputEvent) : Bool :=
  (!isRxEvent e || s.rdreq) &&
    match e with
    | .rxchunk bs => chunkAdmitted bs
    | _ => true

end Sys2Proof.Machine
end

