-- ==== Sys2Proof/Certificates/Slice0/Obligations.lean ====
section
/-! DEFINITION. What the provers are asked to prove, one `def Obligations.<Name> : Prop` each; OBLIGATIONS.json lists them. -/

open Sys2Proof Sys2Proof.Machine

/-! ### Reset -/

/-- R36: the state at power-up and after RESET, item by item; "no value" is said through the readers of BUF, LEN and ACC. -/
def Obligations.ResetStateHoldsItsRuleValues : Prop :=
  ∀ r : State, (r = State.reset ∨ ∃ s, exec .reset s = .next r) →
    r.cnt = 0 ∧ r.phase = some .hunt ∧ (∀ i, Buf.read r.buf i = none) ∧ r.lenValue = none ∧ r.accValue = none ∧
    r.rxq = [] ∧ r.demand = false ∧ r.fault = .none ∧ r.gacc = 0x55

/-- R157: RESET in every state; BUF, LEN and ACC have no value after it. -/
def Obligations.ResetOperationResult : Prop :=
  ∀ s : State,
    ∃ t, exec .reset s = .next t ∧
      t = { s with buf := [], cnt := 0, rxq := [], demand := false, fault := .none, gacc := 0x55 } ∧
      t.phase = some .hunt ∧ (∀ i, Buf.read t.buf i = none) ∧ t.lenValue = none ∧ t.accValue = none ∧ t.rdreq = false

/-! ### The framing operations -/

/-- R131. -/
def Obligations.SkipResult : Prop :=
  ∀ (s : State) (b : Byte), s.demand = true → s.phase = some .hunt → b ≠ 0xAA →
    exec (.skip b) s = .next { s with ops := s.ops ++ [.skip] }

/-- R132. -/
def Obligations.SyncResult : Prop :=
  ∀ s : State, s.demand = true → s.phase = some .hunt →
    ∃ t, exec .sync s = .next t ∧
      t = { s with buf := Buf.write s.buf 0 0xAA, acc := 0xFF, cnt := 1, ops := s.ops ++ [.sync] } ∧
      t.phase = some .header

/-- R133: three HDR operations fill BUF[1] to BUF[3]. -/
def Obligations.HdrResult : Prop :=
  ∀ (s : State) (b : Byte), s.demand = true → s.phase = some .header →
    ∃ t, exec (.hdr b) s = .next t ∧
      t = { s with buf := Buf.write s.buf s.cnt.toNat b, acc := s.acc ^^^ b, cnt := s.cnt + 1, ops := s.ops ++ [.hdr] } ∧
      t.phase = if s.cnt = 3 then some .length else some .header

/-- R134: the next phase is PAYLOAD for a length of 1 or more and CHECKSUM for 0. -/
def Obligations.LenResult : Prop :=
  ∀ (s : State) (b : Byte), s.demand = true → s.phase = some .length →
    ∃ t, exec (.len b) s = .next t ∧
      t = { s with buf := Buf.write s.buf 4 b, len := b, acc := s.acc ^^^ b, cnt := 5, ops := s.ops ++ [.len] } ∧
      t.phase = if b = 0 then some .checksum else some .payload

/-- R135: the last PAY leads to CHECKSUM, and no index above 259 is written. -/
def Obligations.PayResult : Prop :=
  ∀ (s : State) (b : Byte), s.demand = true → s.phase = some .payload →
    ∃ t, exec (.pay b) s = .next t ∧
      t = { s with buf := Buf.write s.buf s.cnt.toNat b, acc := s.acc ^^^ b, cnt := s.cnt + 1, ops := s.ops ++ [.pay] } ∧
      t.phase = (if s.cnt.toNat = 4 + s.len.toNat then some .checksum else some .payload) ∧ s.cnt.toNat ≤ 259

/-- R137 with its common part R136: the whole buffer is emitted, the candidate ends, DEMAND is cleared, and no further POP
is enabled. `f` is what BUF held before the checksum byte; in a state that meets the invariants the frame is block-valid. -/
def Obligations.AcceptResult : Prop :=
  ∀ (s : State) (b : Byte) (f : List Byte),
    s.demand = true → s.phase = some .checksum → s.acc ^^^ b = 0 → s.candidate = some f →
    ∃ t, exec (.accept b) s = .next t ∧
      t = { s with buf := [], acc := 0, cnt := 0, demand := false, out := s.out ++ [.frame (f ++ [b])],
                   ops := s.ops ++ [.accept] } ∧
      t.phase = some .hunt ∧ t.popReady = false ∧ t.lenValue = none ∧ t.accValue = none ∧
      (s.Framed → blockValid (f ++ [b]) = true)

/-- R138 with its common part R136: the candidate ends; nothing is emitted and DEMAND stays. -/
def Obligations.DropResult : Prop :=
  ∀ (s : State) (b : Byte), s.demand = true → s.phase = some .checksum → s.acc ^^^ b ≠ 0 →
    ∃ t, exec (.drop b) s = .next t ∧
      t = { s with buf := [], acc := s.acc ^^^ b, cnt := 0, ops := s.ops ++ [.drop] } ∧
      t.phase = some .hunt ∧ t.demand = true ∧ t.out = s.out ∧ t.lenValue = none ∧ t.accValue = none

/-- A framing operation asked for where R95 does not select it, or without a demand, stops under its own name. The stop is
the model's choice (log 9). -/
def Obligations.FramingOperationOutOfPlaceStops : Prop :=
  ∀ (s : State) (i : Instr), i.format = .pop → i.wf = true → (i.selectedIn s.ctx = false ∨ s.demand = false) →
    exec i s = .fault .notSelected

/-! ### POP and its dispatch -/

/-- R130, R156: POP removes the oldest byte and performs exactly the operation that the phase and the byte select. -/
def Obligations.PopPerformsTheSelectedOperation : Prop :=
  ∀ (s : State) (b : Byte) (rest : List Byte), s.demand = true → s.fault = .none → s.rxq = b :: rest →
    (s.phase = some .hunt → b = 0xAA → exec .pop s = exec .sync { s with rxq := rest }) ∧
    (s.phase = some .hunt → b ≠ 0xAA → exec .pop s = exec (.skip b) { s with rxq := rest }) ∧
    (s.phase = some .header → exec .pop s = exec (.hdr b) { s with rxq := rest }) ∧
    (s.phase = some .length → exec .pop s = exec (.len b) { s with rxq := rest }) ∧
    (s.phase = some .payload → exec .pop s = exec (.pay b) { s with rxq := rest }) ∧
    (s.phase = some .checksum → s.acc ^^^ b = 0 → exec .pop s = exec (.accept b) { s with rxq := rest }) ∧
    (s.phase = some .checksum → s.acc ^^^ b ≠ 0 → exec .pop s = exec (.drop b) { s with rxq := rest })

/-- R156 with R32: in every state that meets the invariants, an enabled POP completes and takes one byte. -/
def Obligations.EnabledPopCompletes : Prop :=
  ∀ s : State, s.Framed → s.demand = true → s.fault = .none → s.rxq ≠ [] →
    ∃ t, exec .pop s = .next t ∧ t.rxq = s.rxq.tail ∧ t.fault = .none ∧ t.gacc = s.gacc ∧ t.pending = s.pending

/-- R156: POP where it is not enabled stops (the stop's name is the model's, log 9). -/
def Obligations.DisabledPopStops : Prop :=
  ∀ s : State, (s.demand = false ∨ s.fault ≠ .none ∨ s.rxq = []) → exec .pop s = .fault .popNotEnabled

/-- R140: once a candidate has begun and before its checksum byte, every byte value is stored; 0xAA has no effect. -/
def Obligations.PositionDecidesMeaning : Prop :=
  ∀ (s : State) (b : Byte) (rest : List Byte), s.demand = true → s.fault = .none → s.rxq = b :: rest →
    (s.phase = some .header ∨ s.phase = some .length ∨ s.phase = some .payload) →
    ∃ t, exec .pop s = .next t ∧ t.cnt = s.cnt + 1 ∧ Buf.read t.buf s.cnt.toNat = some b ∧
      t.acc = s.acc ^^^ b ∧ t.out = s.out ∧ t.demand = true ∧ t.rxq = rest

/-- R139: the transition table, phase and CNT before and after each framing operation; POP performs the one that its byte
selects in the phase it finds; of the other operations only RXFAIL and RESET change the phase. -/
def Obligations.PhaseTransitionTable : Prop :=
  ∀ (s t : State) (i : Instr), exec i s = .next t →
    match i with
    | .sync => s.phase = some .hunt ∧ s.cnt = 0 ∧ t.cnt = 1 ∧ t.phase = some .header
    | .skip b => s.phase = some .hunt ∧ b ≠ 0xAA ∧ s.cnt = 0 ∧ t.cnt = 0 ∧ t.phase = some .hunt
    | .hdr _ => s.phase = some .header ∧ (s.cnt = 1 ∨ s.cnt = 2 ∨ s.cnt = 3) ∧ t.cnt = s.cnt + 1 ∧
        t.phase = if s.cnt = 3 then some .length else some .header
    | .len b => s.phase = some .length ∧ s.cnt = 4 ∧ t.cnt = 5 ∧ t.phase = if b = 0 then some .checksum else some .payload
    | .pay _ => s.phase = some .payload ∧ 5 ≤ s.cnt.toNat ∧ s.cnt.toNat < 5 + s.len.toNat ∧ t.cnt.toNat = s.cnt.toNat + 1 ∧
        t.phase = if s.cnt.toNat = 4 + s.len.toNat then some .checksum else some .payload
    | .accept b => s.phase = some .checksum ∧ s.cnt.toNat = 5 + s.len.toNat ∧ s.acc = b ∧ t.cnt = 0 ∧ t.phase = some .hunt
    | .drop b => s.phase = some .checksum ∧ s.cnt.toNat = 5 + s.len.toNat ∧ s.acc ≠ b ∧ t.cnt = 0 ∧ t.phase = some .hunt
    | .pop => s.phase ≠ some .fault ∧ t.phase ≠ some .fault ∧
        ∃ b rest j, s.rxq = b :: rest ∧ decode s.ctx (.byte b) = .ok j ∧ j.format = .pop ∧
          State.phase { s with rxq := rest } = s.phase ∧ exec j { s with rxq := rest } = .next t
    | .rxfail _ => s.phase ≠ some .fault ∧ t.cnt = 0 ∧ t.phase = some .fault
    | .reset => t.cnt = 0 ∧ t.phase = some .hunt
    | .next => t.phase = s.phase ∧ t.cnt = s.cnt
    | .rxchunk _ => t.phase = s.phase ∧ t.cnt = s.cnt
    | .rxnodata => t.phase = s.phase ∧ t.cnt = s.cnt
    | .gstart => t.phase = s.phase ∧ t.cnt = s.cnt
    | .gbyte _ => t.phase = s.phase ∧ t.cnt = s.cnt
    | .gend => t.phase = s.phase ∧ t.cnt = s.cnt

/-- R144, R24, R82: the sums with LEN are formed in 9 bits and never wrap, nor does CNT + 1 where a byte is stored. -/
def Obligations.NineBitSumsNeverWrap : Prop :=
  (∀ l : Byte, (checksumAt l).toNat = 5 + l.toNat ∧ (checksumAt l + 1).toNat = 6 + l.toNat) ∧
  (∀ s : State, (s.phase = some .header ∨ s.phase = some .length ∨ s.phase = some .payload ∨ s.phase = some .checksum) →
    (s.cnt + 1).toNat = s.cnt.toNat + 1 ∧ s.cnt.toNat + 1 ≤ 261)

/-! ### The ports -/

/-- R152. -/
def Obligations.NextResult : Prop :=
  ∀ s : State,
    (s.fault = .none → exec .next s = .next { s with demand := true }) ∧
    (∀ k, s.fault = .fatal k → exec .next s = .next { s with out := s.out ++ [.fatal k] })

/-- R153: the backlog holds exactly the bytes delivered; POP is enabled and no read is requested. -/
def Obligations.RxchunkResult : Prop :=
  ∀ (s : State) (bs : List Byte), s.rdreq = true → 1 ≤ bs.length → bs.length ≤ Config.rxChunkMax →
    ∃ t, exec (.rxchunk bs) s = .next t ∧ t = { s with rxq := bs } ∧ t.rdreq = false ∧ t.popReady = true

/-- R154: in every phase, nothing changes and the read request stays. -/
def Obligations.RxnodataResult : Prop :=
  ∀ s : State, s.rdreq = true → exec .rxnodata s = .next s

/-- R155, R178: entry to the fatal state. -/
def Obligations.RxfailResult : Prop :=
  ∀ (s : State) (k : FatalKind), s.rdreq = true →
    ∃ t, exec (.rxfail k) s = .next t ∧
      t = { s with fault := .fatal k, buf := [], cnt := 0, demand := false, out := s.out ++ [.fatal k] } ∧
      t.rxq = [] ∧ t.phase = some .fault ∧ t.popReady = false ∧ t.rdreq = false

/-- R151: when RDREQ is 1; while it is 0 no RX event has a step, and while POP is enabled it is 0. -/
def Obligations.ReadRequestAdmitsTheTransport : Prop :=
  ∀ s : State,
    (s.rdreq = true ↔ s.demand = true ∧ s.fault = .none ∧ s.rxq = []) ∧
    (s.popReady = true → s.rdreq = false) ∧
    (s.rdreq = false → ∀ t,
      (∀ bs, exec (.rxchunk bs) s ≠ .next t) ∧ exec .rxnodata s ≠ .next t ∧ ∀ k, exec (.rxfail k) s ≠ .next t)

/-- How the RX operations stop where they are not admitted. The names of the stops are the model's choice (log 8). -/
def Obligations.RxEventsNotAdmittedStop : Prop :=
  ∀ s : State,
    (s.rdreq = false →
      (∀ bs, exec (.rxchunk bs) s = .fault .rxNotAdmitted) ∧ exec .rxnodata s = .fault .rxNotAdmitted ∧
      (∀ k, exec (.rxfail k) s = .fault .rxNotAdmitted)) ∧
    (s.rdreq = true → ∀ bs, (bs = [] ∨ Config.rxChunkMax < bs.length) → exec (.rxchunk bs) s = .fault .rxBadChunk)

/-! ### The generator -/

/-- R118. -/
def Obligations.GstartResult : Prop :=
  ∀ s : State, exec .gstart s = .next { s with gacc := 0x55 }

/-- R119. -/
def Obligations.GbyteResult : Prop :=
  ∀ (s : State) (b : Byte), exec (.gbyte b) s = .next { s with gacc := s.gacc ^^^ b, out := s.out ++ [.tx b] }

/-- R120. -/
def Obligations.GendResult : Prop :=
  ∀ s : State, exec .gend s = .next { s with gacc := 0x55, out := s.out ++ [.tx s.gacc] }

/-- R121: SEAL emits the body and its checksum on TX, in order, and leaves GACC at the seed; the bytes verify, and a
well-formed body makes a block-valid frame with the fields it names. -/
def Obligations.SealEmitsBodyAndChecksum : Prop :=
  ∀ (s : State) (body : List Byte),
    reactAll (sealEvents body) s =
      .next { s with gacc := 0x55, out := s.out ++ (body ++ [compute body]).map .tx } ∧
    verify (body ++ [compute body]) = true ∧
    ∀ (c a n : Byte) (p : List Byte), body = [0xAA, c, a, 0xF4, n] ++ p → p.length = n.toNat →
      blockValid (body ++ [compute body]) = true ∧ readFrame (body ++ [compute body]) = some ⟨c, a, 0xF4, p⟩

/-- R17: the generator's operations commute with every operation of FS: the block's state is the same in either order, and
so is each output stream. -/
def Obligations.GeneratorCommutesWithFs : Prop :=
  ∀ (s t : State) (g i : Instr), g.format = .gen → i.format ≠ .gen → i ≠ .reset → exec i s = .next t →
    ∃ u v w, exec g s = .next u ∧ exec i u = .next v ∧ exec g t = .next w ∧
      { v with out := [] } = { w with out := [] } ∧
      framesOf v.out = framesOf w.out ∧ fatalsOf v.out = fatalsOf w.out ∧ txOf v.out = txOf w.out

/-! ### The checksum functions -/

/-- R114: the four laws of fold. -/
def Obligations.FoldLaws : Prop :=
  (∀ a s t, fold a (s ++ t) = fold (fold a s) t) ∧
  (∀ a s, fold a s = a ^^^ fold 0x00 s) ∧
  (∀ a s s', List.Perm s s' → fold a s = fold a s') ∧
  (∀ s c, compute (s ++ [c]) = compute s ^^^ c)

/-- R115: exactly one checksum byte makes a list verify. -/
def Obligations.SealThenVerify : Prop :=
  ∀ (s : List Byte) (c : Byte), verify (s ++ [c]) = true ↔ c = compute s

/-- R116: the fixed points. -/
def Obligations.ChecksumFixedPoints : Prop :=
  compute [] = 0x55 ∧ compute [0xAA] = 0xFF ∧ compute [0x55] = 0x00 ∧ compute [0x00] = 0x55 ∧ compute [0xFF] = 0xAA ∧
  compute [0xAA, 0x55] = 0xAA ∧ verify [] = false ∧ (∀ b : Byte, verify [b] = true ↔ b = 0x55) ∧
  compute [0xAA, 0x00, 0x00, 0x00, 0x00] = 0xFF

/-- R117, first half: a changed list verifies exactly when the number of changed bits at each bit position is even; a list
changed in one byte never does. -/
def Obligations.ChecksumDetectsOddChanges : Prop :=
  ∀ f g : List Byte, verify f = true → g.length = f.length →
    (verify g = true ↔
      ∀ i < 8, ((List.zipWith (· ^^^ ·) f g).countP fun d => d.getLsbD i) % 2 = 0) ∧
    (∀ (p q : List Byte) (x y : Byte), f = p ++ x :: q → g = p ++ y :: q → x ≠ y → verify g = false)

/-- R122: when the checksum byte is examined ACC is the fold of the bytes gathered, the zero test is `verify` of the whole
candidate, and it holds for one byte only. -/
def Obligations.ValidatorVerifiesTheWholeBuffer : Prop :=
  ∀ (s : State) (f : List Byte) (b : Byte), s.Framed → s.phase = some .checksum → s.candidate = some f →
    f.length = 5 + s.len.toNat ∧ s.acc = compute f ∧
    foldsToZero s.acc b = verify (f ++ [b]) ∧ (foldsToZero s.acc b = true ↔ b = s.acc)

/-! ### Encodings -/

/-- R96: in every state that meets the invariants exactly one row of the dispatch table applies to every admitted input
event, to POP where it is enabled, and to every byte POP may find. -/
def Obligations.DispatchIsUnambiguous : Prop :=
  ∀ s : State, s.Framed →
    (∀ e, admitted s e = true → (dispatchTable.filter (rowApplies s.ctx (.input e))).length = 1) ∧
    (s.popReady = true → (dispatchTable.filter (rowApplies s.ctx .pop)).length = 1 ∧
      ∀ b, (dispatchTable.filter (rowApplies s.ctx (.byte b))).length = 1)

/-- Every well-formed operation is decoded from its encoding, in every context that selects it and with any bytes behind
it (R95, R97, R100). That the notation of R100 is read as ASCII is the model's (log 13). -/
def Obligations.DecodeOfEncodeIsIdentity : Prop :=
  ∀ (i : Instr) (c : Ctx) (rest : List Byte), i.wf = true → i.selectedIn c = true →
    decodeBytes c i.format (encode i ++ rest) = .ok (i, rest)

/-- R100: a trace whose chunks are not empty is read back from its text. That the text is ASCII is the model's (log 13). -/
def Obligations.TraceTextRoundTrip : Prop :=
  ∀ es : List InputEvent, es ≠ [] → (∀ bs, .rxchunk bs ∈ es → bs ≠ []) → readTrace (writeTrace es) = some es

/-- R80 to R84: the fields of a frame are read back from its bytes, and a block-valid list is the bytes of its fields. -/
def Obligations.WireFrameRoundTrip : Prop :=
  (∀ w : WireFrame, w.fits = true → blockValid w.bytes = true ∧ readFrame w.bytes = some w) ∧
  (∀ f : List Byte, blockValid f = true → ∃ w, readFrame f = some w ∧ w.fits = true ∧ w.bytes = f)

/-- Words of each event class, written out. A byte in a phase, and an event, select the operation by R95. That a word of the
opcode table is read as the byte POP examines in HUNT is the model's choice (log 12), and so is ASCII for the characters of
the texts `NEXT`, `RESET`, `RXNODATA`, `RXCHUNK(AA 62)`, `GBYTE(AA)` (log 13). -/
def Obligations.SpecWordsDecode : Prop :=
  decodeTableWord 8 0xAA = some .sync ∧ decodeTableWord 8 0x13 = some (.skip 0x13) ∧
  decode ⟨some .hunt, none, false, true⟩ (.byte 0xAA) = .ok .sync ∧
  decode ⟨some .hunt, none, false, true⟩ (.byte 0x13) = .ok (.skip 0x13) ∧
  decode ⟨some .header, some 0xFF, false, true⟩ (.byte 0x62) = .ok (.hdr 0x62) ∧
  decode ⟨some .length, some 0x65, false, true⟩ (.byte 0x03) = .ok (.len 0x03) ∧
  decode ⟨some .payload, some 0x64, false, true⟩ (.byte 0x7B) = .ok (.pay 0x7B) ∧
  decode ⟨some .checksum, some 0x1F, false, true⟩ (.byte 0x1F) = .ok (.accept 0x1F) ∧
  decode ⟨some .checksum, some 0x1B, false, true⟩ (.byte 0x1F) = .ok (.drop 0x1F) ∧
  decodeBytes ⟨some .hunt, none, false, true⟩ .internal [] = .ok (.pop, []) ∧
  decodeBytes ⟨some .fault, none, false, false⟩ .ctl [0x4E, 0x45, 0x58, 0x54] = .ok (.next, []) ∧
  decodeBytes ⟨some .fault, none, false, false⟩ .ctl [0x52, 0x45, 0x53, 0x45, 0x54] = .ok (.reset, []) ∧
  decodeBytes ⟨some .hunt, none, true, false⟩ .rx [0x52, 0x58, 0x4E, 0x4F, 0x44, 0x41, 0x54, 0x41] = .ok (.rxnodata, []) ∧
  readEvent [0x47, 0x42, 0x59, 0x54, 0x45, 0x28, 0x41, 0x41, 0x29] = some (.gbyte 0xAA, []) ∧
  readEvent [0x52, 0x58, 0x43, 0x48, 0x55, 0x4E, 0x4B, 0x28, 0x41, 0x41, 0x20, 0x36, 0x32, 0x29] =
    some (.rxchunk [0xAA, 0x62], [])

/-- R101: the expansions of RX(bs) are the sequences of chunks of 1 to RX_CHUNK_MAX bytes that deliver exactly `bs`, with
RXNODATA only between them, and every byte list has one. -/
def Obligations.RxExpansionsDeliverTheirBytes : Prop :=
  ∀ bs : List Byte,
    (∀ es : List InputEvent, isRx bs es = true ↔
      delivered (es.map .input) = bs ∧
      (∀ e ∈ es, e = .rxnodata ∨ ∃ c : List Byte, e = .rxchunk c ∧ 1 ≤ c.length ∧ c.length ≤ Config.rxChunkMax) ∧
      es.head? ≠ some .rxnodata ∧ es.getLast? ≠ some .rxnodata) ∧
    ∃ es : List InputEvent, isRx bs es = true

/-! ### Frames -/

/-- R21, R65: HDR, LEN, PAY store at index CNT, SYNC at index 0; the cell stored holds the byte and every other cell reads
as before. -/
def Obligations.StoringOperationsWriteOneCell : Prop :=
  ∀ (s t : State) (b : Byte),
    ((exec (.hdr b) s = .next t ∨ exec (.len b) s = .next t ∨ exec (.pay b) s = .next t) →
      Buf.read t.buf s.cnt.toNat = some b ∧ ∀ a, a ≠ s.cnt.toNat → Buf.read t.buf a = Buf.read s.buf a) ∧
    (exec .sync s = .next t →
      Buf.read t.buf 0 = some 0xAA ∧ ∀ a, a ≠ 0 → Buf.read t.buf a = Buf.read s.buf a)

/-- R35: the operations that write no cell leave every cell; those that end the candidate leave no cell a value. -/
def Obligations.OtherOperationsStoreNothing : Prop :=
  ∀ (s t : State) (i : Instr), exec i s = .next t →
    (match i with
     | .skip _ => ∀ a, Buf.read t.buf a = Buf.read s.buf a
     | .next => ∀ a, Buf.read t.buf a = Buf.read s.buf a
     | .rxchunk _ => ∀ a, Buf.read t.buf a = Buf.read s.buf a
     | .rxnodata => ∀ a, Buf.read t.buf a = Buf.read s.buf a
     | .gstart => ∀ a, Buf.read t.buf a = Buf.read s.buf a
     | .gbyte _ => ∀ a, Buf.read t.buf a = Buf.read s.buf a
     | .gend => ∀ a, Buf.read t.buf a = Buf.read s.buf a
     | .accept _ => ∀ a, Buf.read t.buf a = none
     | .drop _ => ∀ a, Buf.read t.buf a = none
     | .rxfail _ => ∀ a, Buf.read t.buf a = none
     | .reset => ∀ a, Buf.read t.buf a = none
     | _ => True)

/-- R29, R30, R31, R35: which operations write DEMAND, FAULT, GACC, RXQ and LEN; POP writes DEMAND only through ACCEPT. -/
def Obligations.WhoWritesTheFlagsAndRegisters : Prop :=
  ∀ (s t : State) (i : Instr), exec i s = .next t →
    (t.demand ≠ s.demand →
      i = .next ∨ (∃ b, i = .accept b) ∨ (∃ k, i = .rxfail k) ∨ i = .reset ∨
      (i = .pop ∧ ∃ b rest, s.rxq = b :: rest ∧ decode s.ctx (.byte b) = .ok (.accept b))) ∧
    (t.fault ≠ s.fault → (∃ k, i = .rxfail k ∧ t.fault = .fatal k) ∨ (i = .reset ∧ t.fault = .none)) ∧
    (t.gacc ≠ s.gacc → i.format = .gen ∨ i = .reset) ∧
    (t.rxq ≠ s.rxq → i = .pop ∨ i = .reset ∨ ∃ bs, i = .rxchunk bs) ∧
    (t.len ≠ s.len → (∃ b, i = .len b ∧ t.len = b) ∨ i = .pop) ∧
    t.pending = s.pending

/-! ### Outputs -/

/-- R158, R159, R161: an operation emits at most one event; FRAME comes from ACCEPT only and carries a block-valid list of 6
to 261 bytes, FATAL from RXFAIL and from NEXT in phase FAULT, TX from GBYTE and GEND. -/
def Obligations.OutputsComeFromTheirOperations : Prop :=
  ∀ (s t : State) (i : Instr), s.Framed → exec i s = .next t →
    ∃ o, t.out = s.out ++ o ∧ o.length ≤ 1 ∧ ∀ x ∈ o,
      match x with
      | .frame f => (∃ b, i = .accept b ∨ (i = .pop ∧ s.rxq.head? = some b ∧ decode s.ctx (.byte b) = .ok (.accept b))) ∧
          blockValid f = true ∧ 6 ≤ f.length ∧ f.length ≤ 261
      | .fatal k => i = .rxfail k ∨ (i = .next ∧ s.fault = .fatal k)
      | .tx b => i = .gbyte b ∨ (i = .gend ∧ b = s.gacc)

/-- R171: which operation raises which condition, when, what is recorded and what is reported. An operation that raises none
records none: it leaves FAULT, or is RESET. -/
def Obligations.ConditionsAreRaisedRecordedAndReported : Prop :=
  ∀ (s t : State) (i : Instr), exec i s = .next t →
    match raises i with
    | some .checksumMismatch => t.fault = s.fault ∧ t.demand = s.demand ∧ t.out = s.out ∧ t.cnt = 0 ∧
        ∃ b, i = .drop b ∧ s.phase = some .checksum ∧
          (s.Framed → ∃ f, s.candidate = some f ∧ (f ++ [b]).length = 6 + s.len.toNat ∧ verify (f ++ [b]) = false)
    | some .fatalIoError => i = .rxfail .ioError ∧ s.rdreq = true ∧ t.fault = .fatal .ioError ∧
        t.out = s.out ++ [.fatal .ioError]
    | some .fatalEos => i = .rxfail .eos ∧ s.rdreq = true ∧ t.fault = .fatal .eos ∧ t.out = s.out ++ [.fatal .eos]
    | none => t.fault = s.fault ∨ i = .reset

/-- R158: each FRAME answers one NEXT that found DEMAND = 0 and FAULT = NONE. -/
def Obligations.EachFrameAnswersOneNext : Prop :=
  ∀ (s t : State) (i : Instr), exec i s = .next t →
    (framesOf t.out).length + t.demand.toNat ≤
      (framesOf s.out).length + s.demand.toNat +
        (if i = .next ∧ s.demand = false ∧ s.fault = .none then 1 else 0)

/-- R159, R180: from the fatal state only RESET leads out; until then the kind stays and no FRAME is emitted. Whose turn it is
is the model's scheduling (log 2, 17). -/
def Obligations.FatalStateIsSticky : Prop :=
  ∀ (s t : State) (k : FatalKind), s.fault = .fatal k → step s = .next t →
    (t.fault = .fatal k ∧ framesOf t.out = framesOf s.out) ∨ ∃ rest, s.turn = .take .reset rest

/-! ### The machine -/

/-- R95: step runs exactly the operation that the event whose turn it is selects. Whose turn it is, the arrivals that wait,
and the hold that changes nothing are the model's (log 1, 2, 11). -/
def Obligations.StepRunsTheDecodedOperation : Prop :=
  ∀ s : State,
    (∀ e rest i, s.turn = .take e rest → decode { s with pending := rest }.ctx (.input e) = .ok i →
      step s = exec i { s with pending := rest }) ∧
    (∀ rest, s.turn = .pop rest → step s = exec .pop { s with pending := rest }) ∧
    (∀ rest b q i, s.turn = .pop rest → s.rxq = b :: q → decode s.ctx (.byte b) = .ok i →
      step s = exec i { s with rxq := q, pending := rest }) ∧
    (s.turn = .hold → step s = .next s)

/-- R177 item 1: RESET is taken and whatever was offered with it is lost. That events offered together form one arrival, and
when its moment comes, are the model's (log 2, 17). -/
def Obligations.ResetOverridesWhatIsOfferedWithIt : Prop :=
  ∀ (s : State) (a : Arrival) (rest : List Arrival), s.pending = a :: rest → (s.popReady = false ∨ a.due = true) →
    (a.first = .reset ∨ .reset ∈ a.also) →
    step s = .next { s with buf := [], cnt := 0, rxq := [], demand := false, fault := .none, gacc := 0x55, pending := rest }

/-- R32: the reset state meets the invariants. -/
def Obligations.ResetMeetsTheInvariants : Prop := State.reset.Inv

/-- R32: every operation, whoever asks for it, keeps the invariants. -/
def Obligations.EveryOperationKeepsTheInvariants : Prop :=
  ∀ (s t : State) (i : Instr), exec i s = .next t → (s.Framed → t.Framed) ∧ (s.Inv → t.Inv)

/-- R32: every step keeps the invariants. -/
def Obligations.StepKeepsTheInvariants : Prop :=
  ∀ s t : State, step s = .next t → (s.Framed → t.Framed) ∧ (s.Inv → t.Inv)

/-- R175, R88, R164: in a state that meets the invariants the machine never stops, as long as the environment offers only
admitted events. -/
def Obligations.StepNeverStopsOnAdmittedEvents : Prop :=
  ∀ s : State, s.Framed → (∀ e rest, s.turn = .take e rest → admitted { s with pending := rest } e = true) →
    ∃ t, step s = .next t

/-! ### Runs -/

/-- R143: a SYNC leads, after exactly 5 + N further bytes (N the fifth byte of the candidate), to one ACCEPT or one DROP,
according to the fold of the 6 + N bytes; FS hunts again at the byte after. -/
def Obligations.CandidateConsumesSixPlusLength : Prop :=
  ∀ (s : State) (w rest : List Byte) (n : Byte), s.Framed → s.demand = true → s.fault = .none → s.cnt = 0 →
    s.rxq = w ++ rest → w[0]? = some 0xAA → w[4]? = some n → w.length = 6 + n.toNat →
    ∃ t, quiesceFuel (6 + n.toNat) s = .next t ∧ t.rxq = rest ∧ t.cnt = 0 ∧ t.phase = some .hunt ∧
      t.ops = s.ops ++ [.sync, .hdr, .hdr, .hdr, .len] ++ List.replicate n.toNat .pay ++
        [if verify w then .accept else .drop] ∧
      t.out = s.out ++ (if verify w then [.frame w] else []) ∧ t.demand = !verify w

/-- R125, R204 (a), (b): a block-valid frame at the head of the backlog of a hunting FS with a demand is emitted, exactly,
and FS hunts at the next byte, which stays in the backlog. -/
def Obligations.AlignedFrameIsEmitted : Prop :=
  ∀ (s : State) (f rest : List Byte), s.Framed → s.demand = true → s.fault = .none → s.cnt = 0 → s.rxq = f ++ rest →
    blockValid f = true →
    ∃ t, quiesce s = .next t ∧ t.out = s.out ++ [.frame f] ∧ t.rxq = rest ∧ t.cnt = 0 ∧ t.demand = false ∧
      t.phase = some .hunt

/-- R141: for an eager consumer FS emits exactly the frames of `scan`, all of them block-valid, and holds the incomplete
candidate `scan` leaves, however the bytes are cut into reads. -/
def Obligations.FramesAreThoseOfScan : Prop :=
  ∀ (s : State) (cs : List (List Byte)), s.Framed → s.fault = .none → s.cnt = 0 → s.rxq = [] →
    (∀ c ∈ cs, c.length ≤ Config.rxChunkMax) →
    ∃ t, feed cs s = .next t ∧ framesOf t.out = framesOf s.out ++ (scan cs.flatten).1 ∧
      t.candidate = some (scan cs.flatten).2 ∧ t.cnt.toNat = (scan cs.flatten).2.length ∧ t.rxq = [] ∧
      ∀ f ∈ (scan cs.flatten).1, blockValid f = true

/-- R142: in any run of POP steps, reads, NEXT and generator events, however they are interleaved, the frames emitted are the
first ones of `scan` of the bytes delivered, and all of them once the backlog is empty. -/
def Obligations.FramesDoNotDependOnChunkingOrTiming : Prop :=
  ∀ (s t : State) (es : List Event), s.Framed → s.fault = .none → s.cnt = 0 → s.rxq = [] →
    (∀ e ∈ es, staysInStream e = true) → reactEvents es s = .next t →
    (∃ k, framesOf t.out = framesOf s.out ++ (scan (delivered es)).1.take k) ∧
    (t.rxq = [] → framesOf t.out = framesOf s.out ++ (scan (delivered es)).1 ∧
      t.candidate = some (scan (delivered es)).2)

/-- R100, R160, R165: running the machine on a loaded trace reaches the state that the trace, applied event by event with FS
run to quiescence, gives. -/
def Obligations.StepsRunTheLoadedTrace : Prop :=
  ∀ (s t : State) (es : List InputEvent), s.pending = [] → s.quiet = true → applyTrace es s = .next t →
    ∃ n, Host.Core.run core n (s.load es) = .next t

/-- R17, R160, R177: every sequence of input events and POP steps that the enabling conditions allow, a RESET between two
POP steps among them (R208), is a run of the machine, one event a step. That the machine has these runs is the model's choice
where R160 and D24 leave it open (log 2). -/
def Obligations.EveryInterleavingIsARun : Prop :=
  ∀ (s t : State) (es : List Event), s.pending = [] → (∀ b, Event.byte b ∉ es) → reactEvents es s = .next t →
    Host.Core.run core es.length { s with pending := schedule es } = .next t
end

