-- ==== Sys2Proof/Laws/Buf.lean ====
section
/-! SUPPORT. The laws of BUF: read after write, the canonical form kept by every memory operation, and the block read. -/

namespace Sys2Proof.Machine

@[simp] theorem Buf.read_nil (i : Nat) : Buf.read [] i = none := rfl

theorem Buf.read_write_same (m : List Host.Cell) (i : Nat) (b : Byte) : Buf.read (Buf.write m i b) i = some b := by
  induction m with
  | nil => simp [Buf.write, Buf.read]
  | cons c m ih =>
    obtain ⟨x, v⟩ := c
    by_cases h1 : i < x
    · simp [Buf.write, Buf.read, h1]
    · by_cases h2 : i = x
      · simp [Buf.write, Buf.read, h2]
      · simp [Buf.write, Buf.read, h1, h2, Ne.symm h2, ih]

theorem Buf.read_write_ne (m : List Host.Cell) {i j : Nat} (b : Byte) (h : j ≠ i) :
    Buf.read (Buf.write m i b) j = Buf.read m j := by
  induction m with
  | nil => simp [Buf.write, Buf.read, Ne.symm h]
  | cons c m ih =>
    obtain ⟨x, v⟩ := c
    by_cases h1 : i < x
    · simp [Buf.write, Buf.read, h1, Ne.symm h]
    · by_cases h2 : i = x
      · subst h2; simp [Buf.write, Buf.read, Ne.symm h]
      · simp only [Buf.write, h1, h2, if_false, Buf.read, ih]

/-- A lower bound of the indices may be lowered. -/
theorem Buf.wfFrom_mono {lo lo' : Nat} {m : List Host.Cell} (h : Buf.wfFrom lo m = true) (hle : lo' ≤ lo) :
    Buf.wfFrom lo' m = true := by
  cases m with
  | nil => rfl
  | cons c m =>
    obtain ⟨x, v⟩ := c
    simp only [Buf.wfFrom, Bool.and_eq_true, decide_eq_true_eq] at h ⊢
    exact ⟨⟨by omega, h.1.2⟩, h.2⟩

theorem Buf.wfFrom_write {lo i : Nat} {m : List Host.Cell} (b : Byte) (h : Buf.wfFrom lo m = true) (hlo : lo ≤ i)
    (hi : i < Config.bufCap) : Buf.wfFrom lo (Buf.write m i b) = true := by
  induction m generalizing lo with
  | nil => simp [Buf.write, Buf.wfFrom, hlo, hi]
  | cons c m ih =>
    obtain ⟨x, v⟩ := c
    simp only [Buf.wfFrom, Bool.and_eq_true, decide_eq_true_eq] at h
    by_cases h1 : i < x
    · simp [Buf.write, h1, Buf.wfFrom, hlo, hi, h.1.2, h.2]
    · by_cases h2 : i = x
      · subst h2; simp [Buf.write, Buf.wfFrom, hlo, hi, h.2]
      · simp [Buf.write, h1, h2, Buf.wfFrom, h.1.1, h.1.2, ih h.2 (by omega)]

/-- A legal write keeps the canonical form. -/
theorem Buf.wf_write {m : List Host.Cell} {i : Nat} (b : Byte) (h : Buf.wf m = true) (hi : i < Config.bufCap) :
    Buf.wf (Buf.write m i b) = true :=
  Buf.wfFrom_write b h (Nat.zero_le i) hi

/-- `BUF[i] <- b` keeps the canonical form whenever it is legal. -/
theorem Buf.wf_store {m m' : List Host.Cell} {i : Nat} {b : Byte} (h : Buf.wf m = true) (hs : Buf.store m i b = some m') :
    Buf.wf m' = true := by
  simp only [Buf.store] at hs
  split at hs
  · cases hs; exact Buf.wf_write b h ‹_›
  · cases hs

/-- The empty BUF has the canonical form (after RESET, and where a candidate ends). -/
@[simp] theorem Buf.wf_nil : Buf.wf [] = true := rfl

/-- The reset state's BUF has the canonical form. -/
theorem State.reset_buf_wf : Buf.wf State.reset.buf = true := rfl

@[simp] theorem Buf.store_of_lt {m : List Host.Cell} {i : Nat} (b : Byte) (h : i < Config.bufCap) :
    Buf.store m i b = some (Buf.write m i b) := by
  simp [Buf.store, h]

/-- A write beyond every listed index appends. -/
theorem Buf.write_append {m : List Host.Cell} {i : Nat} (b : Byte) (h : ∀ c ∈ m, c.1 < i) :
    Buf.write m i b = m ++ [(i, b)] := by
  induction m with
  | nil => rfl
  | cons c m ih =>
    obtain ⟨x, v⟩ := c
    have hx : x < i := h (x, v) (by simp)
    have h1 : ¬ i < x := by omega
    have h2 : ¬ i = x := by omega
    simp [Buf.write, h1, h2, ih fun c hc => h c (by simp [hc])]

/-- The block read looks at the cells below `n` only. -/
theorem Buf.block_congr {m m' : List Host.Cell} {n : Nat} (h : ∀ i < n, Buf.read m' i = Buf.read m i) :
    Buf.block m' n = Buf.block m n := by
  induction n with
  | zero => rfl
  | succ n ih => simp only [Buf.block, ih fun i hi => h i (by omega), h n (by omega)]

/-- Storing at index `n` extends the block read by the byte stored. -/
theorem Buf.block_write {m : List Host.Cell} {n : Nat} {f : List Byte} (b : Byte) (h : Buf.block m n = some f) :
    Buf.block (Buf.write m n b) (n + 1) = some (f ++ [b]) := by
  have hc : Buf.block (Buf.write m n b) n = some f := by
    rw [Buf.block_congr fun i hi => Buf.read_write_ne m b (by omega), h]
  simp [Buf.block, hc, Buf.read_write_same]

/-- A block read of `n` cells has `n` bytes. -/
theorem Buf.block_length {m : List Host.Cell} {n : Nat} {f : List Byte} (h : Buf.block m n = some f) : f.length = n := by
  induction n generalizing f with
  | zero => simp [Buf.block] at h; simp [← h]
  | succ n ih =>
    simp only [Buf.block] at h
    split at h
    · cases h; simp [ih ‹_›]
    · cases h

/-- The block read gives the cells, in index order. -/
theorem Buf.block_getElem {m : List Host.Cell} {n i : Nat} {f : List Byte} (h : Buf.block m n = some f) (hi : i < n) :
    f[i]? = Buf.read m i := by
  induction n generalizing f with
  | zero => omega
  | succ n ih =>
    simp only [Buf.block] at h
    split at h
    · rename_i bs b h1 h2
      cases h
      have hl := Buf.block_length h1
      by_cases hin : i < n
      · rw [List.getElem?_append_left (by omega)]; exact ih h1 hin
      · have : i = n := by omega
        subst this
        rw [List.getElem?_append_right (by omega), hl, h2]; simp
    · cases h

end Sys2Proof.Machine
end

