-- ==== Sys2Proof/Laws/State.lean ====
section
/-! SUPPORT. Each named update of the state, field by field: the update's own field, and every other field unchanged. -/

namespace Sys2Proof.Machine

variable (s : State)

@[simp] theorem State.setDemand_buf : (s.setDemand).buf = s.buf := rfl
@[simp] theorem State.setDemand_cnt : (s.setDemand).cnt = s.cnt := rfl
@[simp] theorem State.setDemand_len : (s.setDemand).len = s.len := rfl
@[simp] theorem State.setDemand_acc : (s.setDemand).acc = s.acc := rfl
@[simp] theorem State.setDemand_rxq : (s.setDemand).rxq = s.rxq := rfl
@[simp] theorem State.setDemand_demand : (s.setDemand).demand = true := rfl
@[simp] theorem State.setDemand_fault : (s.setDemand).fault = s.fault := rfl
@[simp] theorem State.setDemand_gacc : (s.setDemand).gacc = s.gacc := rfl
@[simp] theorem State.setDemand_out : (s.setDemand).out = s.out := rfl
@[simp] theorem State.setDemand_ops : (s.setDemand).ops = s.ops := rfl
@[simp] theorem State.setDemand_pending : (s.setDemand).pending = s.pending := rfl

@[simp] theorem State.clearDemand_buf : (s.clearDemand).buf = s.buf := rfl
@[simp] theorem State.clearDemand_cnt : (s.clearDemand).cnt = s.cnt := rfl
@[simp] theorem State.clearDemand_len : (s.clearDemand).len = s.len := rfl
@[simp] theorem State.clearDemand_acc : (s.clearDemand).acc = s.acc := rfl
@[simp] theorem State.clearDemand_rxq : (s.clearDemand).rxq = s.rxq := rfl
@[simp] theorem State.clearDemand_demand : (s.clearDemand).demand = false := rfl
@[simp] theorem State.clearDemand_fault : (s.clearDemand).fault = s.fault := rfl
@[simp] theorem State.clearDemand_gacc : (s.clearDemand).gacc = s.gacc := rfl
@[simp] theorem State.clearDemand_out : (s.clearDemand).out = s.out := rfl
@[simp] theorem State.clearDemand_ops : (s.clearDemand).ops = s.ops := rfl
@[simp] theorem State.clearDemand_pending : (s.clearDemand).pending = s.pending := rfl

@[simp] theorem State.setFault_buf (k : FatalKind) : (s.setFault k).buf = s.buf := rfl
@[simp] theorem State.setFault_cnt (k : FatalKind) : (s.setFault k).cnt = s.cnt := rfl
@[simp] theorem State.setFault_len (k : FatalKind) : (s.setFault k).len = s.len := rfl
@[simp] theorem State.setFault_acc (k : FatalKind) : (s.setFault k).acc = s.acc := rfl
@[simp] theorem State.setFault_rxq (k : FatalKind) : (s.setFault k).rxq = s.rxq := rfl
@[simp] theorem State.setFault_demand (k : FatalKind) : (s.setFault k).demand = s.demand := rfl
@[simp] theorem State.setFault_fault (k : FatalKind) : (s.setFault k).fault = .fatal k := rfl
@[simp] theorem State.setFault_gacc (k : FatalKind) : (s.setFault k).gacc = s.gacc := rfl
@[simp] theorem State.setFault_out (k : FatalKind) : (s.setFault k).out = s.out := rfl
@[simp] theorem State.setFault_ops (k : FatalKind) : (s.setFault k).ops = s.ops := rfl
@[simp] theorem State.setFault_pending (k : FatalKind) : (s.setFault k).pending = s.pending := rfl

@[simp] theorem State.emit_buf (o : Output) : (s.emit o).buf = s.buf := rfl
@[simp] theorem State.emit_cnt (o : Output) : (s.emit o).cnt = s.cnt := rfl
@[simp] theorem State.emit_len (o : Output) : (s.emit o).len = s.len := rfl
@[simp] theorem State.emit_acc (o : Output) : (s.emit o).acc = s.acc := rfl
@[simp] theorem State.emit_rxq (o : Output) : (s.emit o).rxq = s.rxq := rfl
@[simp] theorem State.emit_demand (o : Output) : (s.emit o).demand = s.demand := rfl
@[simp] theorem State.emit_fault (o : Output) : (s.emit o).fault = s.fault := rfl
@[simp] theorem State.emit_gacc (o : Output) : (s.emit o).gacc = s.gacc := rfl
@[simp] theorem State.emit_out (o : Output) : (s.emit o).out = s.out ++ [o] := rfl
@[simp] theorem State.emit_ops (o : Output) : (s.emit o).ops = s.ops := rfl
@[simp] theorem State.emit_pending (o : Output) : (s.emit o).pending = s.pending := rfl

@[simp] theorem State.note_buf (op : OpName) : (s.note op).buf = s.buf := rfl
@[simp] theorem State.note_cnt (op : OpName) : (s.note op).cnt = s.cnt := rfl
@[simp] theorem State.note_len (op : OpName) : (s.note op).len = s.len := rfl
@[simp] theorem State.note_acc (op : OpName) : (s.note op).acc = s.acc := rfl
@[simp] theorem State.note_rxq (op : OpName) : (s.note op).rxq = s.rxq := rfl
@[simp] theorem State.note_demand (op : OpName) : (s.note op).demand = s.demand := rfl
@[simp] theorem State.note_fault (op : OpName) : (s.note op).fault = s.fault := rfl
@[simp] theorem State.note_gacc (op : OpName) : (s.note op).gacc = s.gacc := rfl
@[simp] theorem State.note_out (op : OpName) : (s.note op).out = s.out := rfl
@[simp] theorem State.note_ops (op : OpName) : (s.note op).ops = s.ops ++ [op] := rfl
@[simp] theorem State.note_pending (op : OpName) : (s.note op).pending = s.pending := rfl

@[simp] theorem State.pushRx_buf (bs : List Byte) : (s.pushRx bs).buf = s.buf := rfl
@[simp] theorem State.pushRx_cnt (bs : List Byte) : (s.pushRx bs).cnt = s.cnt := rfl
@[simp] theorem State.pushRx_len (bs : List Byte) : (s.pushRx bs).len = s.len := rfl
@[simp] theorem State.pushRx_acc (bs : List Byte) : (s.pushRx bs).acc = s.acc := rfl
@[simp] theorem State.pushRx_rxq (bs : List Byte) : (s.pushRx bs).rxq = s.rxq ++ bs := rfl
@[simp] theorem State.pushRx_demand (bs : List Byte) : (s.pushRx bs).demand = s.demand := rfl
@[simp] theorem State.pushRx_fault (bs : List Byte) : (s.pushRx bs).fault = s.fault := rfl
@[simp] theorem State.pushRx_gacc (bs : List Byte) : (s.pushRx bs).gacc = s.gacc := rfl
@[simp] theorem State.pushRx_out (bs : List Byte) : (s.pushRx bs).out = s.out := rfl
@[simp] theorem State.pushRx_ops (bs : List Byte) : (s.pushRx bs).ops = s.ops := rfl
@[simp] theorem State.pushRx_pending (bs : List Byte) : (s.pushRx bs).pending = s.pending := rfl

@[simp] theorem State.gather_buf (m : List Host.Cell) (a : Byte) : (s.gather m a).buf = m := rfl
@[simp] theorem State.gather_cnt (m : List Host.Cell) (a : Byte) : (s.gather m a).cnt = s.cnt + 1 := rfl
@[simp] theorem State.gather_len (m : List Host.Cell) (a : Byte) : (s.gather m a).len = s.len := rfl
@[simp] theorem State.gather_acc (m : List Host.Cell) (a : Byte) : (s.gather m a).acc = a := rfl
@[simp] theorem State.gather_rxq (m : List Host.Cell) (a : Byte) : (s.gather m a).rxq = s.rxq := rfl
@[simp] theorem State.gather_demand (m : List Host.Cell) (a : Byte) : (s.gather m a).demand = s.demand := rfl
@[simp] theorem State.gather_fault (m : List Host.Cell) (a : Byte) : (s.gather m a).fault = s.fault := rfl
@[simp] theorem State.gather_gacc (m : List Host.Cell) (a : Byte) : (s.gather m a).gacc = s.gacc := rfl
@[simp] theorem State.gather_out (m : List Host.Cell) (a : Byte) : (s.gather m a).out = s.out := rfl
@[simp] theorem State.gather_ops (m : List Host.Cell) (a : Byte) : (s.gather m a).ops = s.ops := rfl
@[simp] theorem State.gather_pending (m : List Host.Cell) (a : Byte) : (s.gather m a).pending = s.pending := rfl

@[simp] theorem State.startCandidate_buf : (s.startCandidate).buf = Buf.write s.buf 0 Config.sentinel := rfl
@[simp] theorem State.startCandidate_cnt : (s.startCandidate).cnt = 1 := rfl
@[simp] theorem State.startCandidate_len : (s.startCandidate).len = s.len := rfl
@[simp] theorem State.startCandidate_acc : (s.startCandidate).acc = Config.seed ^^^ Config.sentinel := rfl
@[simp] theorem State.startCandidate_rxq : (s.startCandidate).rxq = s.rxq := rfl
@[simp] theorem State.startCandidate_demand : (s.startCandidate).demand = s.demand := rfl
@[simp] theorem State.startCandidate_fault : (s.startCandidate).fault = s.fault := rfl
@[simp] theorem State.startCandidate_gacc : (s.startCandidate).gacc = s.gacc := rfl
@[simp] theorem State.startCandidate_out : (s.startCandidate).out = s.out := rfl
@[simp] theorem State.startCandidate_ops : (s.startCandidate).ops = s.ops := rfl
@[simp] theorem State.startCandidate_pending : (s.startCandidate).pending = s.pending := rfl

@[simp] theorem State.latchLen_buf (b : Byte) : (s.latchLen b).buf = s.buf := rfl
@[simp] theorem State.latchLen_cnt (b : Byte) : (s.latchLen b).cnt = s.cnt := rfl
@[simp] theorem State.latchLen_len (b : Byte) : (s.latchLen b).len = b := rfl
@[simp] theorem State.latchLen_acc (b : Byte) : (s.latchLen b).acc = s.acc := rfl
@[simp] theorem State.latchLen_rxq (b : Byte) : (s.latchLen b).rxq = s.rxq := rfl
@[simp] theorem State.latchLen_demand (b : Byte) : (s.latchLen b).demand = s.demand := rfl
@[simp] theorem State.latchLen_fault (b : Byte) : (s.latchLen b).fault = s.fault := rfl
@[simp] theorem State.latchLen_gacc (b : Byte) : (s.latchLen b).gacc = s.gacc := rfl
@[simp] theorem State.latchLen_out (b : Byte) : (s.latchLen b).out = s.out := rfl
@[simp] theorem State.latchLen_ops (b : Byte) : (s.latchLen b).ops = s.ops := rfl
@[simp] theorem State.latchLen_pending (b : Byte) : (s.latchLen b).pending = s.pending := rfl

@[simp] theorem State.endCandidate_buf : (s.endCandidate).buf = [] := rfl
@[simp] theorem State.endCandidate_cnt : (s.endCandidate).cnt = 0 := rfl
@[simp] theorem State.endCandidate_len : (s.endCandidate).len = s.len := rfl
@[simp] theorem State.endCandidate_acc : (s.endCandidate).acc = s.acc := rfl
@[simp] theorem State.endCandidate_rxq : (s.endCandidate).rxq = s.rxq := rfl
@[simp] theorem State.endCandidate_demand : (s.endCandidate).demand = s.demand := rfl
@[simp] theorem State.endCandidate_fault : (s.endCandidate).fault = s.fault := rfl
@[simp] theorem State.endCandidate_gacc : (s.endCandidate).gacc = s.gacc := rfl
@[simp] theorem State.endCandidate_out : (s.endCandidate).out = s.out := rfl
@[simp] theorem State.endCandidate_ops : (s.endCandidate).ops = s.ops := rfl
@[simp] theorem State.endCandidate_pending : (s.endCandidate).pending = s.pending := rfl

@[simp] theorem State.setGacc_buf (v : Byte) : (s.setGacc v).buf = s.buf := rfl
@[simp] theorem State.setGacc_cnt (v : Byte) : (s.setGacc v).cnt = s.cnt := rfl
@[simp] theorem State.setGacc_len (v : Byte) : (s.setGacc v).len = s.len := rfl
@[simp] theorem State.setGacc_acc (v : Byte) : (s.setGacc v).acc = s.acc := rfl
@[simp] theorem State.setGacc_rxq (v : Byte) : (s.setGacc v).rxq = s.rxq := rfl
@[simp] theorem State.setGacc_demand (v : Byte) : (s.setGacc v).demand = s.demand := rfl
@[simp] theorem State.setGacc_fault (v : Byte) : (s.setGacc v).fault = s.fault := rfl
@[simp] theorem State.setGacc_gacc (v : Byte) : (s.setGacc v).gacc = v := rfl
@[simp] theorem State.setGacc_out (v : Byte) : (s.setGacc v).out = s.out := rfl
@[simp] theorem State.setGacc_ops (v : Byte) : (s.setGacc v).ops = s.ops := rfl
@[simp] theorem State.setGacc_pending (v : Byte) : (s.setGacc v).pending = s.pending := rfl

@[simp] theorem State.enterFatal_buf (k : FatalKind) : (s.enterFatal k).buf = [] := rfl
@[simp] theorem State.enterFatal_cnt (k : FatalKind) : (s.enterFatal k).cnt = 0 := rfl
@[simp] theorem State.enterFatal_len (k : FatalKind) : (s.enterFatal k).len = s.len := rfl
@[simp] theorem State.enterFatal_acc (k : FatalKind) : (s.enterFatal k).acc = s.acc := rfl
@[simp] theorem State.enterFatal_rxq (k : FatalKind) : (s.enterFatal k).rxq = s.rxq := rfl
@[simp] theorem State.enterFatal_demand (k : FatalKind) : (s.enterFatal k).demand = false := rfl
@[simp] theorem State.enterFatal_fault (k : FatalKind) : (s.enterFatal k).fault = .fatal k := rfl
@[simp] theorem State.enterFatal_gacc (k : FatalKind) : (s.enterFatal k).gacc = s.gacc := rfl
@[simp] theorem State.enterFatal_out (k : FatalKind) : (s.enterFatal k).out = s.out ++ [.fatal k] := rfl
@[simp] theorem State.enterFatal_ops (k : FatalKind) : (s.enterFatal k).ops = s.ops := rfl
@[simp] theorem State.enterFatal_pending (k : FatalKind) : (s.enterFatal k).pending = s.pending := rfl

@[simp] theorem State.resetBlock_buf : (s.resetBlock).buf = [] := rfl
@[simp] theorem State.resetBlock_cnt : (s.resetBlock).cnt = 0 := rfl
@[simp] theorem State.resetBlock_len : (s.resetBlock).len = s.len := rfl
@[simp] theorem State.resetBlock_acc : (s.resetBlock).acc = s.acc := rfl
@[simp] theorem State.resetBlock_rxq : (s.resetBlock).rxq = [] := rfl
@[simp] theorem State.resetBlock_demand : (s.resetBlock).demand = false := rfl
@[simp] theorem State.resetBlock_fault : (s.resetBlock).fault = .none := rfl
@[simp] theorem State.resetBlock_gacc : (s.resetBlock).gacc = Config.seed := rfl
@[simp] theorem State.resetBlock_out : (s.resetBlock).out = s.out := rfl
@[simp] theorem State.resetBlock_ops : (s.resetBlock).ops = s.ops := rfl
@[simp] theorem State.resetBlock_pending : (s.resetBlock).pending = s.pending := rfl

@[simp] theorem State.load_pending (es : List InputEvent) : (s.load es).pending = es.map fun e => ⟨e, [], .atRest⟩ := rfl
@[simp] theorem State.load_buf (es : List InputEvent) : (s.load es).buf = s.buf := rfl
@[simp] theorem State.load_cnt (es : List InputEvent) : (s.load es).cnt = s.cnt := rfl
@[simp] theorem State.load_len (es : List InputEvent) : (s.load es).len = s.len := rfl
@[simp] theorem State.load_acc (es : List InputEvent) : (s.load es).acc = s.acc := rfl
@[simp] theorem State.load_rxq (es : List InputEvent) : (s.load es).rxq = s.rxq := rfl
@[simp] theorem State.load_demand (es : List InputEvent) : (s.load es).demand = s.demand := rfl
@[simp] theorem State.load_fault (es : List InputEvent) : (s.load es).fault = s.fault := rfl
@[simp] theorem State.load_gacc (es : List InputEvent) : (s.load es).gacc = s.gacc := rfl
@[simp] theorem State.load_out (es : List InputEvent) : (s.load es).out = s.out := rfl
@[simp] theorem State.load_ops (es : List InputEvent) : (s.load es).ops = s.ops := rfl

end Sys2Proof.Machine
end

