-- ==== Sys2Proof/Laws/Operands.lean ====
section
/-! SUPPORT. The 9-bit checksum position, what each phase says of the registers, and what the computed signals mean. -/

namespace Sys2Proof.Machine

/-- 5 + zext_9(LEN) does not wrap (R82, R144). -/
@[simp] theorem checksumAt_toNat (l : Byte) : (checksumAt l).toNat = 5 + l.toNat := by
  have : l.toNat < 256 := l.isLt
  simp [checksumAt, zext9]; omega

/-- RDREQ (R151). -/
theorem rdreq_iff (s : State) : s.rdreq = true ↔ s.demand = true ∧ s.fault = .none ∧ s.rxq = [] := by
  simp [State.rdreq, State.faultFree, and_assoc]

/-- POP is enabled (R156). -/
theorem popReady_iff (s : State) : s.popReady = true ↔ s.demand = true ∧ s.fault = .none ∧ s.rxq ≠ [] := by
  simp [State.popReady, State.faultFree, and_assoc]

/-- While POP is enabled no read is requested (R160). -/
theorem rdreq_of_popReady {s : State} (h : s.popReady = true) : s.rdreq = false := by
  have := (popReady_iff s).1 h
  simp [State.rdreq, this.2.2]

theorem framingIn_iff (s : State) (p : Phase) : s.framingIn p = true ↔ s.demand = true ∧ s.phase = some p := by
  simp [State.framingIn]

/-! What a phase says of FAULT and CNT (R24). -/

theorem phase_fault_iff (s : State) : s.phase = some .fault ↔ s.fault ≠ .none := by
  unfold State.phase; repeat' split
  all_goals simp_all

theorem phase_hunt_iff (s : State) : s.phase = some .hunt ↔ s.fault = .none ∧ s.cnt = 0 := by
  unfold State.phase; repeat' split
  all_goals simp_all

theorem phase_header_iff (s : State) :
    s.phase = some .header ↔ s.fault = .none ∧ 1 ≤ s.cnt.toNat ∧ s.cnt.toNat ≤ 3 := by
  unfold State.phase; repeat' split
  all_goals simp_all [BitVec.le_def, ← BitVec.toNat_inj]
  all_goals omega

theorem phase_length_iff (s : State) : s.phase = some .length ↔ s.fault = .none ∧ s.cnt.toNat = 4 := by
  unfold State.phase; repeat' split
  all_goals simp_all [BitVec.le_def, ← BitVec.toNat_inj]
  all_goals omega

theorem phase_payload_iff (s : State) :
    s.phase = some .payload ↔ s.fault = .none ∧ 5 ≤ s.cnt.toNat ∧ s.cnt.toNat < 5 + s.len.toNat := by
  unfold State.phase; repeat' split
  all_goals simp_all [BitVec.le_def, BitVec.lt_def, ← BitVec.toNat_inj]
  all_goals omega

theorem phase_checksum_iff (s : State) :
    s.phase = some .checksum ↔ s.fault = .none ∧ s.cnt.toNat = 5 + s.len.toNat := by
  unfold State.phase; repeat' split
  all_goals simp_all [BitVec.le_def, BitVec.lt_def, ← BitVec.toNat_inj]
  all_goals omega

/-- The phase is a function of FAULT, CNT and LEN (R24). -/
theorem phase_congr {s t : State} (hf : t.fault = s.fault) (hc : t.cnt = s.cnt) (hl : t.len = s.len) :
    t.phase = s.phase := by
  simp [State.phase, hf, hc, hl]

/-- ACC holds a value exactly while CNT ≥ 1 (R26). -/
theorem accValue_of_pos {s : State} (h : 1 ≤ s.cnt.toNat) : s.accValue = some s.acc := by
  have h0 : ¬ s.cnt = 0 := by intro h0; simp [h0] at h
  exact if_neg h0

/-- In a phase that gathers, CNT is 1 to 260. -/
theorem count_of_gathering {s : State}
    (h : s.phase = some .header ∨ s.phase = some .length ∨ s.phase = some .payload ∨ s.phase = some .checksum) :
    1 ≤ s.cnt.toNat ∧ s.cnt.toNat ≤ 260 := by
  have : s.len.toNat < 256 := s.len.isLt
  rw [phase_header_iff, phase_length_iff, phase_payload_iff, phase_checksum_iff] at h
  omega

end Sys2Proof.Machine
end

