-- ==== Sys2Proof/Laws/Decode.lean ====
section
/-! SUPPORT. What the decoder answers for each event, so that no proof unfolds the dispatch table again (R95, R130). -/

namespace Sys2Proof.Machine

/-- A byte in HUNT (R131, R132). -/
theorem decode_byte_hunt {c : Ctx} (b : Byte) (h : c.phase = some .hunt) :
    decode c (.byte b) = if b = Config.sentinel then .ok .sync else .ok (.skip b) := by
  by_cases hb : b = Config.sentinel
  · subst hb
    simp [decode, selectRow, dispatchTable, rowApplies, phaseHolds, condHolds, Event.kind, Event.operand, instrOf, h,
      Config.sentinel]
  · have hb' : ¬ b &&& 0xFF#8 = 0xAA#8 := by
      have : b &&& 0xFF#8 = b := BitVec.and_allOnes
      rw [this]; exact hb
    have hs : (b != Config.sentinel) = true := by simp [hb]
    simp [decode, selectRow, dispatchTable, rowApplies, phaseHolds, condHolds, Event.kind, Event.operand, instrOf, h,
      hb, hb', hs]

/-- A byte in HEADER (R133). -/
theorem decode_byte_header {c : Ctx} (b : Byte) (h : c.phase = some .header) : decode c (.byte b) = .ok (.hdr b) := by
  simp [decode, selectRow, dispatchTable, rowApplies, phaseHolds, condHolds, Event.kind, Event.operand, instrOf, h]

/-- A byte in LENGTH (R134). -/
theorem decode_byte_length {c : Ctx} (b : Byte) (h : c.phase = some .length) : decode c (.byte b) = .ok (.len b) := by
  simp [decode, selectRow, dispatchTable, rowApplies, phaseHolds, condHolds, Event.kind, Event.operand, instrOf, h]

/-- A byte in PAYLOAD (R135). -/
theorem decode_byte_payload {c : Ctx} (b : Byte) (h : c.phase = some .payload) : decode c (.byte b) = .ok (.pay b) := by
  simp [decode, selectRow, dispatchTable, rowApplies, phaseHolds, condHolds, Event.kind, Event.operand, instrOf, h]

/-- A byte in CHECKSUM (R137, R138). -/
theorem decode_byte_checksum {c : Ctx} {a : Byte} (b : Byte) (h : c.phase = some .checksum) (ha : c.acc = some a) :
    decode c (.byte b) = if a ^^^ b = 0 then .ok (.accept b) else .ok (.drop b) := by
  by_cases hab : a = b
  · subst hab
    simp [decode, selectRow, dispatchTable, rowApplies, phaseHolds, condHolds, Event.kind, Event.operand, instrOf, h, ha]
  · simp [decode, selectRow, dispatchTable, rowApplies, phaseHolds, condHolds, Event.kind, Event.operand, instrOf, h, ha,
      hab]

/-- No byte operation in phase FAULT (R95). -/
theorem decode_byte_fault {c : Ctx} (b : Byte) (h : c.phase = some .fault) :
    decode c (.byte b) = .error .byteWithoutPhase := by
  simp [decode, selectRow, dispatchTable, rowApplies, phaseHolds, Event.kind, h, rejection]

/-- No byte operation where R24 names no phase. -/
theorem decode_byte_none {c : Ctx} (b : Byte) (h : c.phase = none) : decode c (.byte b) = .error .byteWithoutPhase := by
  simp [decode, selectRow, dispatchTable, rowApplies, phaseHolds, Event.kind, h, rejection]

/-- POP (R156). -/
theorem decode_pop (c : Ctx) :
    decode c .pop = if c.phase ≠ some .fault ∧ c.popReady = true then .ok .pop else .error .popNotEnabled := by
  by_cases h : c.phase = some .fault <;> cases hp : c.popReady <;>
    simp [decode, selectRow, dispatchTable, rowApplies, phaseHolds, condHolds, Event.kind, Event.operand, instrOf, h, hp,
      rejection]

@[simp] theorem decode_reset (c : Ctx) : decode c (.input .reset) = .ok .reset := by
  simp [decode, selectRow, dispatchTable, rowApplies, phaseHolds, condHolds, Event.kind, InputEvent.kind, Event.operand,
    instrOf]

@[simp] theorem decode_next (c : Ctx) : decode c (.input .next) = .ok .next := by
  simp [decode, selectRow, dispatchTable, rowApplies, phaseHolds, condHolds, Event.kind, InputEvent.kind, Event.operand,
    instrOf]

@[simp] theorem decode_gstart (c : Ctx) : decode c (.input .gstart) = .ok .gstart := by
  simp [decode, selectRow, dispatchTable, rowApplies, phaseHolds, condHolds, Event.kind, InputEvent.kind, Event.operand,
    instrOf]

@[simp] theorem decode_gbyte (c : Ctx) (b : Byte) : decode c (.input (.gbyte b)) = .ok (.gbyte b) := by
  simp [decode, selectRow, dispatchTable, rowApplies, phaseHolds, condHolds, Event.kind, InputEvent.kind, Event.operand,
    instrOf]

@[simp] theorem decode_gend (c : Ctx) : decode c (.input .gend) = .ok .gend := by
  simp [decode, selectRow, dispatchTable, rowApplies, phaseHolds, condHolds, Event.kind, InputEvent.kind, Event.operand,
    instrOf]

/-- RXCHUNK (R153). -/
theorem decode_rxchunk (c : Ctx) (bs : List Byte) :
    decode c (.input (.rxchunk bs)) =
      if c.phase ≠ some .fault ∧ c.rdreq = true then .ok (.rxchunk bs) else .error .rxNotAdmitted := by
  by_cases h : c.phase = some .fault <;> cases hp : c.rdreq <;>
    simp [decode, selectRow, dispatchTable, rowApplies, phaseHolds, condHolds, Event.kind, InputEvent.kind, Event.operand,
      instrOf, h, hp, rejection]

/-- RXNODATA (R154). -/
theorem decode_rxnodata (c : Ctx) :
    decode c (.input .rxnodata) =
      if c.phase ≠ some .fault ∧ c.rdreq = true then .ok .rxnodata else .error .rxNotAdmitted := by
  by_cases h : c.phase = some .fault <;> cases hp : c.rdreq <;>
    simp [decode, selectRow, dispatchTable, rowApplies, phaseHolds, condHolds, Event.kind, InputEvent.kind, Event.operand,
      instrOf, h, hp, rejection]

/-- RXFAIL (R155). -/
theorem decode_rxfail (c : Ctx) (k : FatalKind) :
    decode c (.input (.rxfail k)) =
      if c.phase ≠ some .fault ∧ c.rdreq = true then .ok (.rxfail k) else .error .rxNotAdmitted := by
  by_cases h : c.phase = some .fault <;> cases hp : c.rdreq <;>
    simp [decode, selectRow, dispatchTable, rowApplies, phaseHolds, condHolds, Event.kind, InputEvent.kind, Event.operand,
      instrOf, h, hp, rejection]

end Sys2Proof.Machine
end

