-- ==== Sys2Proof/Laws/Ops.lean ====
section
/-! SUPPORT. One lemma for each shared operation that says everything it can do, and the inversion of each meaning. -/

namespace Sys2Proof.Machine

@[simp] theorem andThen_next (s : State) (f : State → Answer) : andThen (.next s) f = f s := rfl
@[simp] theorem andThen_fault (r : Fault) (f : State → Answer) : andThen (.fault r) f = .fault r := rfl
@[simp] theorem andThen_refused (r : Refusal) (f : State → Answer) : andThen (.refused r) f = .refused r := rfl

/-- An answer that goes on went on in both parts. -/
theorem andThen_eq_next {o : Answer} {f : State → Answer} {t : State} :
    andThen o f = .next t ↔ ∃ u, o = .next u ∧ f u = .next t := by
  cases o <;> simp [andThen]

/-- The store form goes on wherever a candidate is being gathered (R65, R144). -/
theorem storeFold_next {s : State} (b : Byte) (h1 : 1 ≤ s.cnt.toNat) (h2 : s.cnt.toNat ≤ 260) :
    storeFold b s = .next (s.gather (Buf.write s.buf s.cnt.toNat b) (s.acc ^^^ b)) := by
  have hcap : s.cnt.toNat < Config.bufCap := by
    simp [Config.bufCap, Config.overhead, Config.hdrLen, Config.lenBytes, Config.ckBytes, Config.nMax]; omega
  simp [storeFold, accValue_of_pos h1, hcap]

/-- What the store form does when it goes on (R65). -/
theorem storeFold_inv {s t : State} {b : Byte} (h : storeFold b s = .next t) :
    1 ≤ s.cnt.toNat ∧ s.cnt.toNat ≤ 260 ∧ t = s.gather (Buf.write s.buf s.cnt.toNat b) (s.acc ^^^ b) := by
  simp only [storeFold] at h
  split at h
  · rename_i a m ha hm
    simp only [State.accValue] at ha
    split at ha
    · cases ha
    · rename_i h0
      cases ha
      simp only [Buf.store] at hm
      split at hm
      · rename_i hi
        cases hm
        cases h
        have h0' : s.cnt.toNat ≠ 0 := by
          intro he; exact h0 (by simpa [← BitVec.toNat_inj] using he)
        simp [Config.bufCap, Config.overhead, Config.hdrLen, Config.lenBytes, Config.ckBytes, Config.nMax] at hi
        exact ⟨by omega, by omega, rfl⟩
      · cases hm
  · cases h
  · cases h

/-- POP takes the oldest byte (R156). -/
@[simp] theorem popRx_cons {s : State} {b : Byte} {rest : List Byte} (h : s.rxq = b :: rest) :
    s.popRx = some (b, { s with rxq := rest }) := by
  simp [State.popRx, h]

/-! What raising a condition does. -/

@[simp] theorem raise_checksumMismatch (s : State) : s.raise .checksumMismatch = s.endCandidate := rfl

@[simp] theorem raise_conditionOf (s : State) (k : FatalKind) : s.raise (conditionOf k) = s.enterFatal k := by
  cases k <;> rfl

/-! Inversion: what a state in which an operation went on was, and what it became. -/

theorem execSync_inv {s t : State} (h : execSync s = .next t) :
    s.framingIn .hunt = true ∧ t = s.startCandidate.note .sync := by
  simp only [execSync] at h; split at h
  · cases h; exact ⟨‹_›, rfl⟩
  · cases h

theorem execSkip_inv {b : Byte} {s t : State} (h : execSkip b s = .next t) :
    s.framingIn .hunt = true ∧ b ≠ Config.sentinel ∧ t = s.note .skip := by
  simp only [execSkip] at h; split at h
  · rename_i hc; simp at hc; cases h; exact ⟨hc.1, hc.2, rfl⟩
  · cases h

theorem execHdr_inv {b : Byte} {s t : State} (h : execHdr b s = .next t) :
    s.framingIn .header = true ∧ t = (s.gather (Buf.write s.buf s.cnt.toNat b) (s.acc ^^^ b)).note .hdr := by
  simp only [execHdr] at h; split at h
  · obtain ⟨u, hu, h⟩ := andThen_eq_next.1 h
    obtain ⟨_, _, rfl⟩ := storeFold_inv hu
    cases h; exact ⟨‹_›, rfl⟩
  · cases h

theorem execLen_inv {b : Byte} {s t : State} (h : execLen b s = .next t) :
    s.framingIn .length = true ∧
      t = ((s.gather (Buf.write s.buf s.cnt.toNat b) (s.acc ^^^ b)).latchLen b).note .len := by
  simp only [execLen] at h; split at h
  · obtain ⟨u, hu, h⟩ := andThen_eq_next.1 h
    obtain ⟨_, _, rfl⟩ := storeFold_inv hu
    cases h; exact ⟨‹_›, rfl⟩
  · cases h

theorem execPay_inv {b : Byte} {s t : State} (h : execPay b s = .next t) :
    s.framingIn .payload = true ∧ t = (s.gather (Buf.write s.buf s.cnt.toNat b) (s.acc ^^^ b)).note .pay := by
  simp only [execPay] at h; split at h
  · obtain ⟨u, hu, h⟩ := andThen_eq_next.1 h
    obtain ⟨_, _, rfl⟩ := storeFold_inv hu
    cases h; exact ⟨‹_›, rfl⟩
  · cases h

theorem execAccept_inv {b : Byte} {s t : State} (h : execAccept b s = .next t) :
    s.framingIn .checksum = true ∧ foldsToZero s.acc b = true ∧
      ∃ f, Buf.block (Buf.write s.buf s.cnt.toNat b) (s.cnt + 1).toNat = some f ∧
        t = ((((s.gather (Buf.write s.buf s.cnt.toNat b) (s.acc ^^^ b)).emit (.frame f)).endCandidate).clearDemand).note
          .accept := by
  simp only [execAccept] at h; split at h
  · rename_i hc; simp at hc
    obtain ⟨u, hu, h⟩ := andThen_eq_next.1 h
    obtain ⟨_, _, rfl⟩ := storeFold_inv hu
    split at h
    · rename_i f hf; cases h; exact ⟨hc.1, hc.2, f, hf, rfl⟩
    · cases h
  · cases h

theorem execDrop_inv {b : Byte} {s t : State} (h : execDrop b s = .next t) :
    s.framingIn .checksum = true ∧ foldsToZero s.acc b = false ∧
      t = ((s.gather (Buf.write s.buf s.cnt.toNat b) (s.acc ^^^ b)).endCandidate).note .drop := by
  simp only [execDrop] at h; split at h
  · rename_i hc; simp at hc
    obtain ⟨u, hu, h⟩ := andThen_eq_next.1 h
    obtain ⟨_, _, rfl⟩ := storeFold_inv hu
    cases h; exact ⟨hc.1, hc.2, rfl⟩
  · cases h

theorem execPop_inv {s t : State} (h : execPop s = .next t) :
    s.popReady = true ∧ ∃ b rest i, s.rxq = b :: rest ∧ decode s.ctx (.byte b) = .ok i ∧
      perform i { s with rxq := rest } = .next t := by
  simp only [execPop] at h; split at h
  · rename_i hp
    refine ⟨hp, ?_⟩
    cases hq : s.rxq with
    | nil => simp [State.popReady, hq] at hp
    | cons b rest =>
      simp only [popRx_cons hq] at h
      split at h
      · exact ⟨b, rest, _, rfl, ‹_›, h⟩
      · cases h
  · cases h

theorem execNext_inv {s t : State} (h : execNext s = .next t) :
    (s.fault = .none ∧ t = s.setDemand) ∨ ∃ k, s.fault = .fatal k ∧ t = s.emit (.fatal k) := by
  simp only [execNext] at h; split at h
  · cases h; exact .inr ⟨_, ‹_›, rfl⟩
  · cases h; exact .inl ⟨‹_›, rfl⟩

theorem execRxchunk_inv {bs : List Byte} {s t : State} (h : execRxchunk bs s = .next t) :
    s.rdreq = true ∧ chunkAdmitted bs = true ∧ t = s.pushRx bs := by
  simp only [execRxchunk] at h; split at h
  · split at h
    · cases h; exact ⟨‹_›, ‹_›, rfl⟩
    · cases h
  · cases h

theorem execRxnodata_inv {s t : State} (h : execRxnodata s = .next t) : s.rdreq = true ∧ t = s := by
  simp only [execRxnodata] at h; split at h
  · cases h; exact ⟨‹_›, rfl⟩
  · cases h

theorem execRxfail_inv {k : FatalKind} {s t : State} (h : execRxfail k s = .next t) :
    s.rdreq = true ∧ t = s.enterFatal k := by
  simp only [execRxfail] at h; split at h
  · cases h; exact ⟨‹_›, raise_conditionOf s k⟩
  · cases h

end Sys2Proof.Machine
end

