-- ==== Sys2Proof/Laws/PerInstr.lean ====
section
/-! SUPPORT. The family EventForm: an operation is rebuilt from its mnemonic and its event, so no operand is dropped between them (R3, R95). -/

namespace Sys2Proof.Laws.EventForm

open Sys2Proof

/-- The event of a well-formed operation carries its whole operand, and its mnemonic names its constructor. -/
def Statement (i : Instr) : Prop := i.wf = true → instrOf i.opName i.event = some i

theorem sync : Statement .sync := fun _ => rfl
theorem skip (b : Byte) : Statement (.skip b) := fun _ => rfl
theorem hdr (b : Byte) : Statement (.hdr b) := fun _ => rfl
theorem len (b : Byte) : Statement (.len b) := fun _ => rfl
theorem pay (b : Byte) : Statement (.pay b) := fun _ => rfl
theorem accept (b : Byte) : Statement (.accept b) := fun _ => rfl
theorem drop (b : Byte) : Statement (.drop b) := fun _ => rfl
theorem pop : Statement .pop := fun _ => rfl
theorem next : Statement .next := fun _ => rfl
theorem rxchunk (bs : List Byte) : Statement (.rxchunk bs) := fun _ => rfl
theorem rxnodata : Statement .rxnodata := fun _ => rfl
theorem rxfail (kind : FatalKind) : Statement (.rxfail kind) := fun _ => rfl
theorem reset : Statement .reset := fun _ => rfl
theorem gstart : Statement .gstart := fun _ => rfl
theorem gbyte (b : Byte) : Statement (.gbyte b) := fun _ => rfl
theorem gend : Statement .gend := fun _ => rfl

end Sys2Proof.Laws.EventForm
end

