-- ==== Sys2Proof/Laws/Turn.lean ====
section
/-! SUPPORT. Whose turn it is, as conditions on the state, and what the arrivals of a schedule lead to (R160, R177). -/

namespace Sys2Proof.Machine

/-- An arrival is taken or waits: `takeArrival` never gives POP the turn, nor nobody. -/
theorem takeArrival_cases (a : Arrival) (rest : List Arrival) : ∃ e p, takeArrival a rest = .take e p := by
  simp only [takeArrival]
  split
  · exact ⟨_, _, rfl⟩
  · split <;> exact ⟨_, _, rfl⟩

/-- POP has the turn only where it is enabled. -/
theorem popReady_of_turn {s : State} {p : List Arrival} (h : s.turn = .pop p) : s.popReady = true := by
  simp only [State.turn] at h
  split at h
  · split at h
    · assumption
    · cases h
  · rename_i a rest _
    split at h
    · rename_i hc; simp at hc; exact hc.1
    · obtain ⟨e, q, he⟩ := takeArrival_cases a rest; rw [he] at h; cases h

/-- An arrival whose moment has come, or that finds POP not enabled, has the turn. -/
theorem turn_cons_take {s : State} {a : Arrival} {rest : List Arrival} (hp : s.pending = a :: rest)
    (h : s.popReady = false ∨ a.due = true) : s.turn = takeArrival a rest := by
  rcases h with h | h <;> simp [State.turn, hp, h]

/-- Any other arrival lets POP go first. -/
theorem turn_cons_pop {s : State} {a : Arrival} {rest : List Arrival} (hp : s.pending = a :: rest)
    (hr : s.popReady = true) (h : a.due = false) : s.turn = .pop (a.countPop :: rest) := by
  simp [State.turn, hp, hr, h]

/-- A schedule is empty, or its first arrival waits for a number of POP steps. -/
theorem schedule_cases (es : List Event) :
    schedule es = [] ∨ ∃ e a n rest, schedule es = ⟨e, a, .afterPops n⟩ :: rest := by
  induction es with
  | nil => exact .inl rfl
  | cons x es ih =>
    cases x with
    | input e => exact .inr ⟨_, _, _, _, rfl⟩
    | byte b => exact ih
    | pop =>
      rcases ih with h | ⟨e, a, n, rest, h⟩
      · left; simp [schedule, h, addPop]
      · right; exact ⟨e, a, n + 1, rest, by simp [schedule, h, addPop]⟩

/-- Where POP is enabled, a schedule that begins with POP gives it the turn, and the rest of the schedule waits. -/
theorem turn_schedule_pop {s : State} {es : List Event} (hp : s.pending = schedule (.pop :: es)) (hr : s.popReady = true) :
    s.turn = .pop (schedule es) := by
  rcases schedule_cases es with h | ⟨e, a, n, rest, h⟩
  · have : s.pending = [] := by simp [hp, schedule, h, addPop]
    simp [State.turn, this, hr, h]
  · have : s.pending = ⟨e, a, .afterPops (n + 1)⟩ :: rest := by simp [hp, schedule, h, addPop]
    rw [turn_cons_pop this hr (by simp [Arrival.due])]
    simp [Arrival.countPop, h]

/-- A schedule that begins with an input event gives it the turn. -/
theorem turn_schedule_input {s : State} {e : InputEvent} {es : List Event} (hp : s.pending = schedule (.input e :: es)) :
    s.turn = .take e (schedule es) := by
  rw [turn_cons_take hp (.inr rfl)]
  by_cases h : e = .reset <;> simp [takeArrival, h]

end Sys2Proof.Machine
end

