-- ==== Sys2Proof/Tests/Slice0.lean ====
section
/-! SUPPORT. Tests: ill-formed operands, words written out from the encodings, the vectors of 95_test_vectors.md (V<n>), and a witness for the hypotheses of every obligation. -/

namespace Sys2Proof.Tests

open Sys2Proof Sys2Proof.Machine

/-! ### Small states -/

/-- A cell list holding `bs` from index 0. -/
def cellsOf (bs : List Byte) : List Host.Cell := (List.range bs.length).zip bs

/-- A demand outstanding, nothing gathered, `q` in the backlog. -/
def hunting (q : List Byte) : State := { State.reset with demand := true, rxq := q }

/-- A demand outstanding and `bs` gathered, with LEN, ACC and the backlog as given. -/
def gathered (bs : List Byte) (len acc : Byte) (q : List Byte) : State :=
  { hunting q with buf := cellsOf bs, cnt := BitVec.ofNat 9 bs.length, len := len, acc := acc }

/-- Phase FAULT. -/
def failed (k : FatalKind) : State := { State.reset with fault := .fatal k }

/-- R1 of 95_test_vectors.md, and its length and fold before the checksum byte. -/
def frameR1 : List Byte := [0xAA, 0x62, 0x0C, 0xF4, 0x03, 0x02, 0x7B, 0x00, 0x1F]

/-- R1 gathered but for its checksum byte (V28). -/
def almostR1 (q : List Byte) : State := gathered frameR1.dropLast 0x03 0x1F q

/-- 260 bytes gathered, LEN = FF: the last position of the longest frame (P6). -/
def almostBig : State := { hunting [0x65] with cnt := 260, len := 0xFF, acc := 0x65 }

/-- What an operation leaves of some fields: CNT, ACC, DEMAND, the phase. -/
def seen (o : Answer) : Option (Nat × Byte × Bool × Option Phase) :=
  (nextOf o).map fun t => (t.cnt.toNat, t.acc, t.demand, t.phase)

/-- The output events after an operation. -/
def outOf (o : Answer) : Option (List Output) := (nextOf o).map (·.out)

/-- An answer with a next state. -/
theorem next_of {o : Answer} (h : (nextOf o).isSome = true) : ∃ t, o = .next t := by
  cases o with
  | next t => exact ⟨t, rfl⟩
  | fault r => cases h
  | refused r => cases h

/-! ### WellFormed refuses -/

theorem test_wf_skip_sentinel : (Instr.skip 0xAA).wf = false := by decide
theorem test_wf_rxchunk_empty : (Instr.rxchunk []).wf = false := by decide
theorem test_wf_rxchunk_long : (Instr.rxchunk (List.replicate (Config.rxChunkMax + 1) 0x00)).wf = false := by
  simp [Instr.wf]
theorem test_wf_rxchunk_one : (Instr.rxchunk [0x13]).wf = true := by simp [Instr.wf, Config.rxChunkMax]

/-! ### Decoding, from R95, R80 and R100 -/

/-- R95, POP rows: the byte and the phase select. -/
theorem test_decode_hunt :
    decode ⟨some .hunt, none, false, true⟩ (.byte 0xAA) = .ok .sync ∧
    decode ⟨some .hunt, none, false, true⟩ (.byte 0xAB) = .ok (.skip 0xAB) := by decide
theorem test_decode_header : decode ⟨some .header, some 0xFF, false, true⟩ (.byte 0xAA) = .ok (.hdr 0xAA) := by decide
theorem test_decode_length : decode ⟨some .length, some 0x65, false, true⟩ (.byte 0xAA) = .ok (.len 0xAA) := by decide
theorem test_decode_payload : decode ⟨some .payload, some 0x64, false, true⟩ (.byte 0xAA) = .ok (.pay 0xAA) := by decide
theorem test_decode_checksum :
    decode ⟨some .checksum, some 0x1F, false, true⟩ (.byte 0x1F) = .ok (.accept 0x1F) ∧
    decode ⟨some .checksum, some 0x1F, false, true⟩ (.byte 0x1E) = .ok (.drop 0x1E) := by decide
/-- R95: no POP row for phase FAULT; RX events only while RDREQ = 1; NEXT and RESET in any phase. -/
theorem test_decode_refused :
    decode ⟨some .fault, none, false, false⟩ (.byte 0xAA) = .error .byteWithoutPhase ∧
    decode ⟨some .fault, none, false, false⟩ .pop = .error .popNotEnabled ∧
    decode ⟨some .hunt, none, false, true⟩ (.input .rxnodata) = .error .rxNotAdmitted ∧
    decode ⟨some .fault, none, false, false⟩ (.input .next) = .ok .next ∧
    decode ⟨some .fault, none, false, false⟩ (.input .reset) = .ok .reset := by decide
theorem test_decode_rx :
    decode ⟨some .header, some 0x55, true, false⟩ (.input (.rxchunk [0x01])) = .ok (.rxchunk [0x01]) ∧
    decode ⟨some .header, some 0x55, true, false⟩ (.input .rxnodata) = .ok .rxnodata ∧
    decode ⟨some .header, some 0x55, true, false⟩ (.input (.rxfail .eos)) = .ok (.rxfail .eos) := by decide
/-- R100, character by character in ASCII: `RESET`, `NEXT`, `RXNODATA`, `GSTART`, `GEND`. -/
theorem test_text_plain :
    readEvent [0x52, 0x45, 0x53, 0x45, 0x54] = some (.reset, []) ∧
    readEvent [0x4E, 0x45, 0x58, 0x54] = some (.next, []) ∧
    readEvent [0x52, 0x58, 0x4E, 0x4F, 0x44, 0x41, 0x54, 0x41] = some (.rxnodata, []) ∧
    readEvent [0x47, 0x53, 0x54, 0x41, 0x52, 0x54] = some (.gstart, []) ∧
    readEvent [0x47, 0x45, 0x4E, 0x44] = some (.gend, []) := by decide
/-- R100: `RXFAIL(EOS)`, `RXFAIL(IO_ERROR)`. -/
theorem test_text_rxfail :
    readEvent [0x52, 0x58, 0x46, 0x41, 0x49, 0x4C, 0x28, 0x45, 0x4F, 0x53, 0x29] = some (.rxfail .eos, []) ∧
    readEvent [0x52, 0x58, 0x46, 0x41, 0x49, 0x4C, 0x28, 0x49, 0x4F, 0x5F, 0x45, 0x52, 0x52, 0x4F, 0x52, 0x29] =
      some (.rxfail .ioError, []) := by decide
/-- R100: `RXCHUNK(AA 62)`, `GBYTE(0C)`; lower-case digits and an empty list are no events. -/
theorem test_text_bytes :
    readEvent [0x52, 0x58, 0x43, 0x48, 0x55, 0x4E, 0x4B, 0x28, 0x41, 0x41, 0x20, 0x36, 0x32, 0x29] =
      some (.rxchunk [0xAA, 0x62], []) ∧
    readEvent [0x47, 0x42, 0x59, 0x54, 0x45, 0x28, 0x30, 0x43, 0x29] = some (.gbyte 0x0C, []) ∧
    readEvent [0x47, 0x42, 0x59, 0x54, 0x45, 0x28, 0x30, 0x63, 0x29] = none ∧
    readEvent [0x52, 0x58, 0x43, 0x48, 0x55, 0x4E, 0x4B, 0x28, 0x29] = none := by decide
/-- R100: `RESET;NEXT`. -/
theorem test_text_trace :
    readTrace [0x52, 0x45, 0x53, 0x45, 0x54, 0x3B, 0x4E, 0x45, 0x58, 0x54] = some [.reset, .next] := by decide
/-- R97: an operation is read in its own event class only. -/
theorem test_text_class :
    decodeBytes tableCtx .gen [0x4E, 0x45, 0x58, 0x54] = .error .wrongFormat ∧
    decodeBytes tableCtx .ctl [0x4E, 0x45, 0x58, 0x54] = .ok (.next, []) ∧
    decodeBytes tableCtx .internal [] = .ok (.pop, []) := by decide

/-! ### The framing operations (V16 to V29) -/

theorem test_v16_skip : seen (exec (.skip 0x13) (hunting [])) = some (0, 0x00, true, some .hunt) := by decide
theorem test_v18_sync : seen (exec .sync (hunting [])) = some (1, 0xFF, true, some .header) := by decide
theorem test_v18_buffer : (nextOf (exec .sync (hunting []))).map (fun t => t.bufValue 0) = some (some 0xAA) := by decide
theorem test_v19_hdr : seen (exec (.hdr 0x62) (gathered [0xAA] 0 0xFF [])) = some (2, 0x9D, true, some .header) := by decide
theorem test_v20_hdr_sentinel :
    (nextOf (exec (.hdr 0xAA) (gathered [0xAA] 0 0xFF []))).map (fun t => (t.acc, t.bufValue 1)) =
      some (0x55, some 0xAA) := by decide
theorem test_v21_hdr_last :
    seen (exec (.hdr 0xF4) (gathered [0xAA, 0x62, 0x0C] 0 0x91 [])) = some (4, 0x65, true, some .length) := by decide
theorem test_v22_len :
    seen (exec (.len 0x03) (gathered [0xAA, 0x62, 0x0C, 0xF4] 0 0x65 [])) = some (5, 0x66, true, some .payload) := by decide
theorem test_v23_len_zero :
    seen (exec (.len 0x00) (gathered [0xAA, 0x62, 0x0C, 0xF4] 0 0x65 [])) = some (5, 0x65, true, some .checksum) := by decide
theorem test_v25_pay :
    seen (exec (.pay 0x7B) (gathered [0xAA, 0x62, 0x0C, 0xF4, 0x03, 0x02] 0x03 0x64 [])) =
      some (7, 0x1F, true, some .payload) := by decide
theorem test_v26_pay_last :
    seen (exec (.pay 0x00) (gathered [0xAA, 0x62, 0x0C, 0xF4, 0x03, 0x02, 0x7B] 0x03 0x1F [])) =
      some (8, 0x1F, true, some .checksum) := by decide
theorem test_v28_accept :
    (nextOf (exec (.accept 0x1F) (almostR1 []))).map (fun t => (t.cnt, t.demand, t.out)) =
      some (0, false, [.frame frameR1]) := by decide
theorem test_v29_drop :
    (nextOf (exec (.drop 0x1F) (gathered [0xAA, 0x62, 0x0C, 0xF4, 0x03, 0x02, 0x7F, 0x00] 0x03 0x1B []))).map
      (fun t => (t.cnt, t.demand, t.out)) = some (0, true, []) := by decide
/-- R144: with LEN = FF the checksum position is 260, formed in 9 bits. -/
theorem test_r144_phase : almostBig.phase = some .checksum ∧ ({ almostBig with cnt := 259 } : State).phase = some .payload := by
  decide

/-! ### The ports (V53 to V67) -/

theorem test_v53_next : (nextOf (exec .next State.reset)).map (fun t => (t.demand, t.rdreq)) = some (true, true) := by decide
theorem test_v55_next_fault :
    (nextOf (exec .next (failed .ioError))).map (fun t => (t.demand, t.out)) = some (false, [.fatal .ioError]) := by decide
/-- V57 with a chunk of one byte, the length that every RX_CHUNK_MAX admits. -/
theorem test_v57_rxchunk :
    (nextOf (exec (.rxchunk [0x13]) (hunting []))).map (fun t => (t.rxq, t.rdreq, t.popReady)) =
      some ([0x13], false, true) := by decide
theorem test_v58_rxnodata : nextOf (exec .rxnodata (gathered [0xAA, 0x62] 0 0x9D [])) = some (gathered [0xAA, 0x62] 0 0x9D []) := by
  decide
theorem test_v60_rxfail :
    (nextOf (exec (.rxfail .eos) (almostR1 []))).map (fun t => (t.fault, t.demand, t.cnt, t.out)) =
      some (.fatal .eos, false, 0, [.fatal .eos]) := by decide
theorem test_v61_not_admitted :
    faultOf (exec (.rxchunk [0xAA]) State.reset) = some .rxNotAdmitted ∧
    faultOf (exec .rxnodata State.reset) = some .rxNotAdmitted := by decide
theorem test_v62_reset : nextOf (exec .reset { State.reset with rxq := [0x01, 0xAA, 0x62] }) = some State.reset := by decide
theorem test_v63_reset_fault : nextOf (exec .reset (failed .eos)) = some State.reset := by decide
theorem test_v65_idle : faultOf (exec .pop { State.reset with rxq := [0xAA, 0x62] }) = some .popNotEnabled := by decide
/-- R156's example: RXQ = 1F 01, ACC = 1F. -/
theorem test_r156_pop :
    (nextOf (exec .pop (almostR1 [0x1F, 0x01]))).map (fun t => (t.rxq, t.demand, t.out)) =
      some ([0x01], false, [.frame frameR1]) := by decide
theorem test_v67_gbyte_fault :
    (nextOf (exec (.gbyte 0xAA) (failed .eos))).map (fun t => (t.gacc, t.fault, t.out)) =
      some (0xFF, .fatal .eos, [.tx 0xAA]) := by decide

/-! ### The generator and the checksum functions (V1 to V15) -/

theorem test_v12_gend : (nextOf (exec .gend State.reset)).map (fun t => (t.gacc, t.out)) = some (0x55, [.tx 0x55]) := by decide
theorem test_v14_gstart : (nextOf (exec .gstart { State.reset with gacc := 0xD1 })).map (·.gacc) = some 0x55 := by decide
theorem test_v5_compute : compute [0xAA, 0x22, 0x0C, 0xF4, 0x03, 0x02, 0x00, 0x00] = 0x24 := by decide
theorem test_v7_verify :
    verify frameR1 = true ∧ verify [0xAA, 0x62, 0x0C, 0xF4, 0x03, 0x02, 0x7F, 0x00, 0x1F] = false ∧
    verify [0xAA, 0x62, 0x0C, 0xF4, 0x03, 0x02, 0x6B, 0x10, 0x1F] = true := by decide
/-- V13: no GSTART after reset. -/
theorem test_v13_generator :
    outOf (reactAll [.gbyte 0xAA, .gbyte 0x62, .gbyte 0x0C, .gbyte 0xF4, .gbyte 0x00, .gend] State.reset) =
      some [.tx 0xAA, .tx 0x62, .tx 0x0C, .tx 0xF4, .tx 0x00, .tx 0x65] := by decide
/-- V15: sealed, but no frame. -/
theorem test_v15_not_valid : sealBytes [0x01, 0x02] = [0x01, 0x02, 0x56] ∧ blockValid [0x01, 0x02, 0x56] = false := by decide
/-- The request of E5. -/
theorem test_e5_request : reqFrame 0x0C 0x02 = [0xAA, 0x22, 0x0C, 0xF4, 0x03, 0x02, 0x00, 0x00, 0x24] := by decide
theorem test_v45_valid :
    blockValid [0xAA, 0x00, 0x00, 0x00, 0x00, 0xFF] = true ∧ protocolValid [0xAA, 0x00, 0x00, 0x00, 0x00, 0xFF] = false := by
  decide

/-! ### `scan` (V31, V36, V45) -/

theorem test_v31_scan :
    scan [0xAA, 0xAA, 0x22, 0x0C, 0xF4, 0x03, 0x02, 0x00, 0x00, 0x24] =
      ([], [0xAA, 0xAA, 0x22, 0x0C, 0xF4, 0x03, 0x02, 0x00, 0x00, 0x24]) := by decide
theorem test_v36_scan :
    scan ([0xAA, 0x62, 0x0C, 0xF4, 0x01, 0x02, 0x7B, 0x00, 0x1F] ++ frameR1) = ([frameR1], []) := by decide

/-! ### The step -/

/-- The host's table word: 0xAA placed for the first step after reset is run as SYNC. -/
theorem test_step_word :
    decodeTableWord 8 0xAA = some .sync ∧
    nextOf (step (State.reset.withFetchWord 8 0xAA)) = nextOf (exec .sync (hunting [])) := by decide
/-- R163: at reset, with nothing to come, the block holds. -/
theorem test_step_hold : nextOf (step State.reset) = some State.reset := by decide
/-- R177 item 1: RESET wins over the NEXT offered with it. -/
theorem test_step_reset_wins :
    nextOf (step { failed .eos with pending := [⟨.next, [.reset], .atRest⟩] }) = some State.reset := by decide
/-- R160, R208: a RESET that comes between two POP steps is taken before the next POP. -/
theorem test_step_between :
    (nextOf (step { almostR1 [0x1F] with pending := [⟨.reset, [], .afterPops 0⟩] })).map (fun t => (t.rxq, t.out)) =
      some ([], []) := by decide
/-- One that comes after one POP more lets that POP go first. -/
theorem test_step_after_pop :
    (nextOf (step { almostR1 [0x1F] with pending := [⟨.reset, [], .afterPops 1⟩] })).map (fun t => (t.out, t.pending)) =
      some ([.frame frameR1], [⟨.reset, [], .afterPops 0⟩]) := by decide

/-! ### RX(bs) (R101) -/

/-- RXNODATA between two chunks only; no chunk is empty. -/
theorem test_r101_rx :
    isRx [0xAA, 0x62] [.rxchunk [0xAA], .rxnodata, .rxnodata, .rxchunk [0x62]] = true ∧
    isRx [0xAA] [.rxnodata, .rxchunk [0xAA]] = false ∧ isRx [0xAA] [.rxchunk [0xAA], .rxnodata] = false ∧
    isRx [0xAA] [.rxchunk [0xAA], .rxchunk []] = false ∧ isRx [0x62] [.rxchunk [0xAA]] = false := by decide
theorem test_r101_rx_long : isRx (List.replicate (Config.rxChunkMax + 1) 0x00) [.rxchunk (List.replicate (Config.rxChunkMax + 1) 0x00)] = false := by
  simp [isRx, rxBytes, chunkAdmitted]

/-! ### Witnesses: states and operands that meet the hypotheses of the obligations -/

theorem witness_ResetStateHoldsItsRuleValues :
    State.reset = State.reset ∧ ∃ t, exec .reset (failed .eos) = .next t := ⟨rfl, next_of (by decide)⟩
theorem witness_SkipResult : (hunting []).demand = true ∧ (hunting []).phase = some .hunt ∧ (0x13 : Byte) ≠ 0xAA := by decide
theorem witness_SyncResult : (hunting []).demand = true ∧ (hunting []).phase = some .hunt := by decide
theorem witness_HdrResult :
    (gathered [0xAA] 0 0xFF []).demand = true ∧ (gathered [0xAA] 0 0xFF []).phase = some .header ∧
    (gathered [0xAA, 0x62, 0x0C] 0 0x91 []).phase = some .header := by decide
theorem witness_LenResult :
    (gathered [0xAA, 0x62, 0x0C, 0xF4] 0 0x65 []).demand = true ∧
    (gathered [0xAA, 0x62, 0x0C, 0xF4] 0 0x65 []).phase = some .length := by decide
/-- CNT = 5 with LEN = 1, and CNT = 259 with LEN = FF. -/
theorem witness_PayResult :
    (gathered [0xAA, 0x62, 0x0C, 0xF4, 0x01] 0x01 0x64 []).demand = true ∧
    (gathered [0xAA, 0x62, 0x0C, 0xF4, 0x01] 0x01 0x64 []).phase = some .payload ∧
    ({ almostBig with cnt := 259 } : State).phase = some .payload := by decide
theorem witness_AcceptResult :
    (almostR1 []).demand = true ∧ (almostR1 []).phase = some .checksum ∧ (almostR1 []).acc ^^^ 0x1F = 0 ∧
    (almostR1 []).candidate = some frameR1.dropLast := by decide
theorem witness_DropResult :
    (almostR1 []).demand = true ∧ (almostR1 []).phase = some .checksum ∧ (almostR1 []).acc ^^^ 0x1E ≠ 0 := by decide
theorem witness_FramingOperationOutOfPlaceStops :
    (Instr.hdr 0x62).format = .pop ∧ (Instr.hdr 0x62).wf = true ∧ (Instr.hdr 0x62).selectedIn (hunting []).ctx = false ∧
    Instr.sync.format = .pop ∧ Instr.sync.wf = true ∧ State.reset.demand = false := by decide
/-- The common hypotheses with each of the seven phases and bytes. -/
theorem witness_PopPerformsTheSelectedOperation :
    (∀ s ∈ [hunting [0xAA], hunting [0x13], gathered [0xAA] 0 0xFF [0x62], gathered [0xAA, 0x62, 0x0C, 0xF4] 0 0x65 [0x03],
        gathered [0xAA, 0x62, 0x0C, 0xF4, 0x01] 0x01 0x64 [0x02], almostR1 [0x1F], almostR1 [0x1E], almostBig],
      s.demand = true ∧ s.fault = .none ∧ s.rxq ≠ []) ∧
    (hunting [0xAA]).phase = some .hunt ∧ (hunting [0x13]).phase = some .hunt ∧
    (gathered [0xAA] 0 0xFF [0x62]).phase = some .header ∧
    (gathered [0xAA, 0x62, 0x0C, 0xF4] 0 0x65 [0x03]).phase = some .length ∧
    (gathered [0xAA, 0x62, 0x0C, 0xF4, 0x01] 0x01 0x64 [0x02]).phase = some .payload ∧
    (almostR1 [0x1F]).phase = some .checksum ∧ (almostR1 [0x1F]).acc ^^^ 0x1F = 0 ∧
    (almostR1 [0x1E]).phase = some .checksum ∧ (almostR1 [0x1E]).acc ^^^ 0x1E ≠ 0 ∧
    almostBig.phase = some .checksum ∧ almostBig.acc ^^^ 0x65 = 0 := by decide
/-- R1 but for its checksum byte, with bytes waiting: the invariants hold in mid-candidate. -/
theorem almostR1_framed (q : List Byte) : (almostR1 q).Framed := by
  refine ⟨?_, ?_, ?_, ?_, ?_, ?_, ?_, ?_⟩
  · show (almostR1 []).cnt.toNat ≤ 260; decide
  · show Buf.wf (almostR1 []).buf = true; decide
  · show (almostR1 []).buf.map Prod.fst = List.range (almostR1 []).cnt.toNat; decide
  · intro _; show Buf.read (almostR1 []).buf 4 = some (almostR1 []).len ∧ (almostR1 []).cnt ≤ checksumAt (almostR1 []).len; decide
  · intro _; show Buf.read (almostR1 []).buf 0 = some Config.sentinel; decide
  · intro _; show (almostR1 []).candidate.map compute = some (almostR1 []).acc; decide
  · intro h; cases h
  · intro h; exact absurd rfl h
theorem witness_EnabledPopCompletes :
    (almostR1 [0x1F]).Framed ∧ (almostR1 [0x1F]).demand = true ∧ (almostR1 [0x1F]).fault = .none ∧ (almostR1 [0x1F]).rxq ≠ [] :=
  ⟨almostR1_framed _, by decide⟩
theorem witness_DisabledPopStops :
    State.reset.demand = false ∧ (failed .eos).fault ≠ .none ∧ (hunting []).rxq = [] := by decide
theorem witness_PositionDecidesMeaning :
    (∀ s ∈ [gathered [0xAA] 0 0xFF [0xAA], gathered [0xAA, 0x62, 0x0C, 0xF4] 0 0x65 [0xAA],
        gathered [0xAA, 0x62, 0x0C, 0xF4, 0x01] 0x01 0x64 [0xAA]], s.demand = true ∧ s.fault = .none ∧ s.rxq = 0xAA :: []) ∧
    (gathered [0xAA] 0 0xFF [0xAA]).phase = some .header ∧
    (gathered [0xAA, 0x62, 0x0C, 0xF4] 0 0x65 [0xAA]).phase = some .length ∧
    (gathered [0xAA, 0x62, 0x0C, 0xF4, 0x01] 0x01 0x64 [0xAA]).phase = some .payload := by decide

/-- One operation of every kind with a state in which it completes; HDR and PAY at both ends of their ranges, NEXT in and
out of phase FAULT. -/
def samples : List (Instr × State) :=
  [ (.sync, hunting []), (.skip 0x13, hunting []), (.hdr 0x62, gathered [0xAA] 0 0xFF []),
    (.hdr 0xF4, gathered [0xAA, 0x62, 0x0C] 0 0x91 []), (.len 0x03, gathered [0xAA, 0x62, 0x0C, 0xF4] 0 0x65 []),
    (.len 0x00, gathered [0xAA, 0x62, 0x0C, 0xF4] 0 0x65 []),
    (.pay 0x02, gathered [0xAA, 0x62, 0x0C, 0xF4, 0x03] 0x03 0x66 []),
    (.pay 0x02, gathered [0xAA, 0x62, 0x0C, 0xF4, 0x01] 0x01 0x64 []) ] ++
  [ (.accept 0x1F, almostR1 []), (.drop 0x1E, almostR1 []), (.pop, almostR1 [0x1F]), (.next, State.reset),
    (.next, failed .eos), (.rxchunk [0x13], hunting []), (.rxnodata, hunting []), (.rxfail .eos, almostR1 []),
    (.reset, failed .ioError), (.gstart, State.reset), (.gbyte 0xAA, failed .eos), (.gend, almostR1 []) ]

/-- `exec i s = .next t` is met for every operation: the hypothesis of PhaseTransitionTable, OtherOperationsStoreNothing,
WhoWritesTheFlagsAndRegisters, EachFrameAnswersOneNext and EveryOperationKeepsTheInvariants. -/
theorem witness_exec : ∀ p ∈ samples, ∃ t, exec p.1 p.2 = .next t := by
  have : ∀ p ∈ samples, (nextOf (exec p.1 p.2)).isSome = true := by decide
  exact fun p hp => next_of (this p hp)
/-- Each flag and register of WhoWritesTheFlagsAndRegisters is changed by some sample. -/
theorem witness_WhoWritesTheFlagsAndRegisters :
    (samples.any fun p => (nextOf (exec p.1 p.2)).any fun t => t.demand != p.2.demand) = true ∧
    (samples.any fun p => (nextOf (exec p.1 p.2)).any fun t => t.fault != p.2.fault) = true ∧
    (samples.any fun p => (nextOf (exec p.1 p.2)).any fun t => t.gacc != p.2.gacc) = true ∧
    (samples.any fun p => (nextOf (exec p.1 p.2)).any fun t => t.rxq != p.2.rxq) = true ∧
    (samples.any fun p => (nextOf (exec p.1 p.2)).any fun t => t.len != p.2.len) = true := by decide
/-- The four phases of NineBitSumsNeverWrap, CHECKSUM at its highest position. -/
theorem witness_NineBitSumsNeverWrap :
    (gathered [0xAA] 0 0xFF []).phase = some .header ∧ (gathered [0xAA, 0x62, 0x0C, 0xF4] 0 0x65 []).phase = some .length ∧
    ({ almostBig with cnt := 259 } : State).phase = some .payload ∧ almostBig.phase = some .checksum := by decide
theorem witness_NextResult : State.reset.fault = .none ∧ (failed .eos).fault = .fatal .eos := by decide
theorem witness_RxchunkResult :
    (hunting []).rdreq = true ∧ 1 ≤ ([0x13] : List Byte).length ∧ ([0x13] : List Byte).length ≤ Config.rxChunkMax :=
  ⟨by decide, by decide, Nat.le_add_left 1 _⟩
theorem witness_RxnodataResult : (gathered [0xAA, 0x62] 0 0x9D []).rdreq = true := by decide
theorem witness_RxfailResult : (almostR1 []).rdreq = true := by decide
theorem witness_ReadRequestAdmitsTheTransport :
    (hunting [0xAA]).popReady = true ∧ State.reset.rdreq = false ∧ (hunting []).rdreq = true := by decide
theorem witness_RxEventsNotAdmittedStop :
    State.reset.rdreq = false ∧ (hunting []).rdreq = true ∧
    Config.rxChunkMax < (List.replicate (Config.rxChunkMax + 1) (0x00 : Byte)).length :=
  ⟨by decide, by decide, by simp⟩
theorem witness_SealEmitsBodyAndChecksum :
    ([0xAA, 0x22, 0x0C, 0xF4, 0x03, 0x02, 0x00, 0x00] : List Byte) = [0xAA, 0x22, 0x0C, 0xF4, 0x03] ++ [0x02, 0x00, 0x00] ∧
    ([0x02, 0x00, 0x00] : List Byte).length = (0x03 : Byte).toNat := by decide
theorem witness_GeneratorCommutesWithFs :
    (Instr.gbyte 0x13).format = .gen ∧ (Instr.accept 0x1F).format ≠ .gen ∧ (Instr.accept 0x1F) ≠ .reset ∧
    ∃ t, exec (.accept 0x1F) (almostR1 []) = .next t :=
  ⟨by decide, by decide, by decide, next_of (by decide)⟩
/-- R1 with one byte changed, and R1 with two flips in one bit position (V8). -/
theorem witness_ChecksumDetectsOddChanges :
    verify frameR1 = true ∧ ([0xAA, 0x62, 0x0C, 0xF4, 0x03, 0x02, 0x7F, 0x00, 0x1F] : List Byte).length = frameR1.length ∧
    frameR1 = [0xAA, 0x62, 0x0C, 0xF4, 0x03, 0x02] ++ 0x7B :: [0x00, 0x1F] ∧ (0x7B : Byte) ≠ 0x7F ∧
    ([0xAA, 0x62, 0x0C, 0xF4, 0x03, 0x02, 0x6B, 0x10, 0x1F] : List Byte).length = frameR1.length := by decide
theorem witness_ValidatorVerifiesTheWholeBuffer :
    (almostR1 []).Framed ∧ (almostR1 []).phase = some .checksum ∧ (almostR1 []).candidate = some frameR1.dropLast :=
  ⟨almostR1_framed _, by decide⟩
theorem witness_DispatchIsUnambiguous :
    (almostR1 [0x1F]).Framed ∧ (almostR1 [0x1F]).popReady = true ∧ (almostR1 []).Framed ∧ admitted (almostR1 []) .rxnodata = true :=
  ⟨almostR1_framed _, by decide, almostR1_framed _, by decide⟩
/-- Every sample is well-formed and selected by the context of its state, up to POP's own byte. -/
theorem witness_DecodeOfEncodeIsIdentity :
    ∀ p ∈ samples, p.1.wf = true ∧ p.1.selectedIn p.2.ctx = true := by decide
theorem witness_TraceTextRoundTrip :
    ([.reset, .rxchunk [0x13]] : List InputEvent) ≠ [] ∧
    ∀ bs, InputEvent.rxchunk bs ∈ ([.reset, .rxchunk [0x13]] : List InputEvent) → bs ≠ [] := by
  refine ⟨by decide, fun bs h => ?_⟩
  rintro rfl
  exact absurd h (by decide)
theorem witness_WireFrameRoundTrip :
    (⟨0x62, 0x0C, 0xF4, [0x02, 0x7B, 0x00]⟩ : WireFrame).fits = true ∧ blockValid frameR1 = true := by decide
theorem witness_StoringOperationsWriteOneCell :
    (∃ t, exec (.hdr 0x62) (gathered [0xAA] 0 0xFF []) = .next t) ∧
    (∃ t, exec (.len 0x03) (gathered [0xAA, 0x62, 0x0C, 0xF4] 0 0x65 []) = .next t) ∧
    (∃ t, exec (.pay 0x02) (gathered [0xAA, 0x62, 0x0C, 0xF4, 0x01] 0x01 0x64 []) = .next t) ∧
    (∃ t, exec .sync (hunting []) = .next t) :=
  ⟨next_of (by decide), next_of (by decide), next_of (by decide), next_of (by decide)⟩
theorem witness_OutputsComeFromTheirOperations :
    (almostR1 [0x1F]).Framed ∧ (∃ t, exec .pop (almostR1 [0x1F]) = .next t) ∧ ∃ t, exec (.accept 0x1F) (almostR1 [0x1F]) = .next t :=
  ⟨almostR1_framed _, next_of (by decide), next_of (by decide)⟩
/-- NEXT is taken in phase FAULT, and RESET leads out. -/
theorem witness_FatalStateIsSticky :
    (failed .eos).fault = .fatal .eos ∧ (∃ t, step ((failed .eos).load [.next]) = .next t) ∧
    ∃ t, step ((failed .eos).load [.reset]) = .next t :=
  ⟨rfl, next_of (by decide), next_of (by decide)⟩
/-- An arrival, a POP with its byte decoded, a hold. -/
theorem witness_StepRunsTheDecodedOperation :
    (State.reset.load [.next]).turn = .take .next [] ∧
    decode ({ State.reset.load [.next] with pending := [] } : State).ctx (.input .next) = .ok .next ∧
    (hunting [0xAA]).turn = .pop [] ∧ (hunting [0xAA]).rxq = 0xAA :: [] ∧ decode (hunting [0xAA]).ctx (.byte 0xAA) = .ok .sync ∧
    State.reset.turn = .hold := by decide
theorem witness_ResetOverridesWhatIsOfferedWithIt :
    ({ almostR1 [0x1F] with pending := [⟨.next, [.reset], .afterPops 0⟩] } : State).pending =
      [⟨.next, [.reset], .afterPops 0⟩] ∧
    (⟨.next, [.reset], .afterPops 0⟩ : Arrival).due = true ∧
    ({ failed .eos with pending := [⟨.reset, [], .atRest⟩] } : State).popReady = false ∧
    InputEvent.reset ∈ ([.reset] : List InputEvent) := by decide
/-- NEXT, a read, the POP of its byte, and a RESET. -/
theorem witness_EveryInterleavingIsARun :
    State.reset.pending = [] ∧ (∀ b, Event.byte b ∉ [Event.input .next, .input (.rxchunk [0xAA]), .pop, .input .reset]) ∧
    ∃ t, reactEvents [.input .next, .input (.rxchunk [0xAA]), .pop, .input .reset] State.reset = .next t :=
  ⟨rfl, fun b h => by simp at h, next_of (by decide)⟩
/-- Each of the three conditions of R171 is raised, and an operation that raises none completes. -/
theorem witness_ConditionsAreRaisedRecordedAndReported :
    (raises (.drop 0x1E) = some .checksumMismatch ∧ (almostR1 []).Framed ∧ ∃ t, exec (.drop 0x1E) (almostR1 []) = .next t) ∧
    (raises (.rxfail .ioError) = some .fatalIoError ∧ ∃ t, exec (.rxfail .ioError) (hunting []) = .next t) ∧
    (raises (.rxfail .eos) = some .fatalEos ∧ ∃ t, exec (.rxfail .eos) (almostR1 []) = .next t) ∧
    raises .next = none ∧ ∃ t, exec .next State.reset = .next t :=
  ⟨⟨rfl, almostR1_framed _, next_of (by decide)⟩, ⟨rfl, next_of (by decide)⟩, ⟨rfl, next_of (by decide)⟩, rfl, next_of (by decide)⟩
/-- A state in mid-candidate meets all the invariants, and every step from it is a next state. -/
theorem witness_StepKeepsTheInvariants :
    (almostR1 [0x1F]).Inv ∧ (∃ t, exec .pop (almostR1 [0x1F]) = .next t) ∧ ∃ t, step (almostR1 [0x1F]) = .next t :=
  ⟨⟨almostR1_framed _, Nat.le_add_left 1 _⟩, next_of (by decide), next_of (by decide)⟩
/-- An RX event offered where it is admitted, in mid-candidate. -/
theorem witness_StepNeverStopsOnAdmittedEvents :
    ((almostR1 []).load [.rxnodata]).turn = .take .rxnodata [] ∧
    admitted { (almostR1 []).load [.rxnodata] with pending := [] } .rxnodata = true ∧ (almostR1 []).Framed :=
  ⟨by decide, by decide, almostR1_framed _⟩
/-- Nothing gathered: the invariants hold for every backlog. -/
theorem hunting_framed (q : List Byte) : (hunting q).Framed :=
  ⟨Nat.zero_le _, rfl, rfl, fun h => absurd h (show ¬ (5 : Count) ≤ 0 by decide), fun h => absurd rfl h, fun h => absurd rfl h,
    fun _ => rfl, fun h => absurd rfl h⟩
theorem witness_CandidateConsumesSixPlusLength :
    (hunting (frameR1 ++ [0x01])).Framed ∧ (hunting (frameR1 ++ [0x01])).demand = true ∧
    (hunting (frameR1 ++ [0x01])).fault = .none ∧ (hunting (frameR1 ++ [0x01])).cnt = 0 ∧
    (hunting (frameR1 ++ [0x01])).rxq = frameR1 ++ [0x01] ∧ frameR1[0]? = some 0xAA ∧ frameR1[4]? = some 0x03 ∧
    frameR1.length = 6 + (0x03 : Byte).toNat :=
  ⟨hunting_framed _, by decide⟩
theorem witness_AlignedFrameIsEmitted :
    (hunting (frameR1 ++ frameR1)).Framed ∧ (hunting (frameR1 ++ frameR1)).demand = true ∧
    (hunting (frameR1 ++ frameR1)).fault = .none ∧ (hunting (frameR1 ++ frameR1)).cnt = 0 ∧
    (hunting (frameR1 ++ frameR1)).rxq = frameR1 ++ frameR1 ∧ blockValid frameR1 = true :=
  ⟨hunting_framed _, by decide⟩
/-- R1 cut into reads of one byte, the length that every RX_CHUNK_MAX admits. -/
theorem witness_FramesAreThoseOfScan :
    (hunting []).Framed ∧ (hunting []).fault = .none ∧ (hunting []).cnt = 0 ∧ (hunting []).rxq = [] ∧
    ∀ c ∈ frameR1.map (fun b => [b]), c.length ≤ Config.rxChunkMax := by
  refine ⟨hunting_framed _, rfl, rfl, rfl, fun c h => ?_⟩
  obtain ⟨b, -, rfl⟩ := List.mem_map.1 h
  exact Nat.le_add_left 1 _
/-- A read of one byte with NEXT before it and after it, and the POP. -/
theorem witness_FramesDoNotDependOnChunkingOrTiming :
    State.reset.Framed ∧ State.reset.fault = .none ∧ State.reset.cnt = 0 ∧ State.reset.rxq = [] ∧
    (∀ e ∈ [Event.input .next, .input (.rxchunk [0xAA]), .input .next, .pop], staysInStream e = true) ∧
    ∃ t, reactEvents [.input .next, .input (.rxchunk [0xAA]), .input .next, .pop] State.reset = .next t := by
  refine ⟨⟨Nat.zero_le _, rfl, rfl, ?_, fun h => absurd rfl h, fun h => absurd rfl h, fun _ => rfl, fun h => absurd rfl h⟩,
    rfl, rfl, rfl, by decide, next_of (by decide)⟩
  exact fun h => absurd h (show ¬ (5 : Count) ≤ 0 by decide)
theorem witness_StepsRunTheLoadedTrace :
    State.reset.pending = [] ∧ State.reset.quiet = true ∧ ∃ t, applyTrace [.next, .rxchunk [0x13]] State.reset = .next t :=
  ⟨rfl, rfl, next_of (by decide)⟩

end Sys2Proof.Tests
end

section
/-! The output streams of a joined list of outputs (R50). -/

namespace Sys2Proof.Machine

@[simp] theorem framesOf_append (o o' : List Output) : framesOf (o ++ o') = framesOf o ++ framesOf o' := by
  induction o with
  | nil => rfl
  | cons x o ih => cases x <;> simp [framesOf, ih]

@[simp] theorem fatalsOf_append (o o' : List Output) : fatalsOf (o ++ o') = fatalsOf o ++ fatalsOf o' := by
  induction o with
  | nil => rfl
  | cons x o ih => cases x <;> simp [fatalsOf, ih]

@[simp] theorem txOf_append (o o' : List Output) : txOf (o ++ o') = txOf o ++ txOf o' := by
  induction o with
  | nil => rfl
  | cons x o ih => cases x <;> simp [txOf, ih]

end Sys2Proof.Machine
end

section
/-! What FS neither reads nor takes away: GACC, the outputs so far and the arrivals to come (R17). `FsLocal f` says so of a
meaning `f`; it is closed under the ways the meanings are built, so each operation of FS has it by its construction. -/

namespace Sys2Proof.Machine

/-- The state with the register of GEN, the outputs so far and the arrivals to come replaced. -/
def State.surround (g : Byte) (o : List Output) (p : List Arrival) (s : State) : State :=
  { s with gacc := g, out := o, pending := p }

section
variable (g : Byte) (o : List Output) (p : List Arrival) (s : State)

@[simp] theorem State.surround_rxq : (s.surround g o p).rxq = s.rxq := rfl
@[simp] theorem State.surround_fault : (s.surround g o p).fault = s.fault := rfl
@[simp] theorem State.surround_gacc : (s.surround g o p).gacc = g := rfl
@[simp] theorem State.surround_out : (s.surround g o p).out = o := rfl
@[simp] theorem State.surround_pending : (s.surround g o p).pending = p := rfl
@[simp] theorem State.surround_candidate : (s.surround g o p).candidate = s.candidate := rfl
@[simp] theorem State.surround_popReady : (s.surround g o p).popReady = s.popReady := rfl
@[simp] theorem State.surround_ctx : (s.surround g o p).ctx = s.ctx := rfl

end

/-- `f` neither reads nor changes GACC and the arrivals, and its only effect on the outputs is to append some, none of them
on TX, that do not depend on those before. -/
def FsLocal (f : State → Answer) : Prop :=
  ∀ s t, f s = .next t → ∃ os, txOf os = [] ∧ ∀ g o p, f (s.surround g o p) = .next (t.surround g (o ++ os) p)

/-- What such a meaning does to the three items itself. -/
theorem items_of_fsLocal_run {f : State → Answer} {s t : State} {os : List Output} (h : f s = .next t)
    (hs : ∀ g o p, f (s.surround g o p) = .next (t.surround g (o ++ os) p)) :
    t.gacc = s.gacc ∧ t.out = s.out ++ os ∧ t.pending = s.pending := by
  have h' : f s = .next (t.surround s.gacc (s.out ++ os) s.pending) := hs s.gacc s.out s.pending
  have ht : t = t.surround s.gacc (s.out ++ os) s.pending := Host.Outcome.next.inj (h.symm.trans h')
  exact ⟨congrArg (·.gacc) ht, congrArg (·.out) ht, congrArg (·.pending) ht⟩

theorem fsLocal_fault (r : Fault) : FsLocal fun _ => .fault r := fun _ _ h => nomatch h

/-- An update that commutes with the replacement, so that it emits nothing. -/
theorem fsLocal_silent {F : State → State} (h : ∀ s g o p, F (s.surround g o p) = (F s).surround g o p) :
    FsLocal fun s => .next (F s) := by
  rintro s _ ⟨⟩
  exact ⟨[], rfl, fun g o p => by simp [h]⟩

/-- A test that reads none of the three items. -/
theorem fsLocal_ite {c : State → Bool} {f f' : State → Answer} (hc : ∀ s g o p, c (s.surround g o p) = c s)
    (hf : FsLocal f) (hf' : FsLocal f') : FsLocal fun s => if c s then f s else f' s := by
  intro s t h
  cases hcs : c s with
  | true =>
    obtain ⟨os, htx, hs⟩ := hf s t (by simpa [hcs] using h)
    exact ⟨os, htx, fun g o p => by simpa [hc, hcs] using hs g o p⟩
  | false =>
    obtain ⟨os, htx, hs⟩ := hf' s t (by simpa [hcs] using h)
    exact ⟨os, htx, fun g o p => by simpa [hc, hcs] using hs g o p⟩

theorem fsLocal_andThen {f k : State → Answer} (hf : FsLocal f) (hk : FsLocal k) : FsLocal fun s => andThen (f s) k := by
  intro s t h
  obtain ⟨u, hu, ht⟩ := andThen_eq_next.1 h
  obtain ⟨os, htx, hs⟩ := hf s u hu
  obtain ⟨os', htx', hs'⟩ := hk u t ht
  exact ⟨os ++ os', by simp [htx, htx'], fun g o p => by simp [hs, hs']⟩

/-! ### The operations of FS -/

theorem fsLocal_storeFold (b : Byte) : FsLocal (storeFold b) := by
  intro s t h
  obtain ⟨h1, h2, rfl⟩ := storeFold_inv h
  exact ⟨[], rfl, fun g o p => by
    rw [storeFold_next (s := s.surround g o p) b h1 h2, List.append_nil]; rfl⟩

theorem fsLocal_execSync : FsLocal execSync :=
  fsLocal_ite (fun _ _ _ _ => rfl) (fsLocal_silent fun _ _ _ _ => rfl) (fsLocal_fault _)

theorem fsLocal_execSkip (b : Byte) : FsLocal (execSkip b) :=
  fsLocal_ite (fun _ _ _ _ => rfl) (fsLocal_silent fun _ _ _ _ => rfl) (fsLocal_fault _)

/-- The form the meanings of the gathering operations share: where a test holds, the store, then `k`. -/
theorem fsLocal_store_then {c : State → Bool} {k : State → Answer} (b : Byte)
    (hc : ∀ s g o p, c (s.surround g o p) = c s) (hk : FsLocal k) :
    FsLocal fun s => if c s then andThen (storeFold b s) k else .fault .notSelected :=
  fsLocal_ite hc (fsLocal_andThen (fsLocal_storeFold b) hk) (fsLocal_fault _)

theorem fsLocal_execHdr (b : Byte) : FsLocal (execHdr b) :=
  fsLocal_store_then b (fun _ _ _ _ => rfl) (fsLocal_silent fun _ _ _ _ => rfl)

theorem fsLocal_execLen (b : Byte) : FsLocal (execLen b) :=
  fsLocal_store_then b (fun _ _ _ _ => rfl) (fsLocal_silent fun _ _ _ _ => rfl)

theorem fsLocal_execPay (b : Byte) : FsLocal (execPay b) :=
  fsLocal_store_then b (fun _ _ _ _ => rfl) (fsLocal_silent fun _ _ _ _ => rfl)

theorem fsLocal_execDrop (b : Byte) : FsLocal (execDrop b) :=
  fsLocal_store_then b (fun _ _ _ _ => rfl) (fsLocal_silent fun _ _ _ _ => rfl)

/-- ACCEPT appends the one FRAME, made of the candidate alone. -/
theorem fsLocal_execAccept (b : Byte) : FsLocal (execAccept b) := by
  refine fsLocal_store_then b (fun _ _ _ _ => rfl) fun s t h => ?_
  cases hf : s.candidate with
  | none => simp [hf] at h
  | some f =>
    simp only [hf, Host.Outcome.next.injEq] at h
    subst h
    exact ⟨[.frame f], rfl, fun g o p => by simp only [State.surround_candidate, hf]; rfl⟩

theorem fsLocal_perform (i : Instr) : FsLocal (perform i) := by
  cases i with
  | sync => exact fsLocal_execSync
  | skip b => exact fsLocal_execSkip b
  | hdr b => exact fsLocal_execHdr b
  | len b => exact fsLocal_execLen b
  | pay b => exact fsLocal_execPay b
  | accept b => exact fsLocal_execAccept b
  | drop b => exact fsLocal_execDrop b
  | _ => exact fsLocal_fault _

/-- POP takes the oldest byte, and the operation that byte selects is local. -/
theorem fsLocal_execPop : FsLocal execPop := by
  intro s t h
  obtain ⟨hr, b, rest, i, hq, hd, hp⟩ := execPop_inv h
  obtain ⟨os, htx, hs⟩ := fsLocal_perform i _ t hp
  refine ⟨os, htx, fun g o p => ?_⟩
  have hq' : (s.surround g o p).rxq = b :: rest := hq
  simp only [execPop, State.surround_popReady, hr, if_true, popRx_cons hq', State.surround_ctx, hd]
  exact hs g o p

/-- NEXT sets DEMAND, or appends FATAL of the recorded kind. -/
theorem fsLocal_execNext : FsLocal execNext := by
  intro s t h
  rcases execNext_inv h with ⟨hf, rfl⟩ | ⟨k, hf, rfl⟩
  · exact ⟨[], rfl, fun g o p => by simp only [execNext, State.surround_fault, hf, List.append_nil]; rfl⟩
  · exact ⟨[.fatal k], rfl, fun g o p => by simp only [execNext, State.surround_fault, hf]; rfl⟩

theorem fsLocal_execRxchunk (bs : List Byte) : FsLocal (execRxchunk bs) :=
  fsLocal_ite (fun _ _ _ _ => rfl)
    (fsLocal_ite (fun _ _ _ _ => rfl) (fsLocal_silent fun _ _ _ _ => rfl) (fsLocal_fault _)) (fsLocal_fault _)

theorem fsLocal_execRxnodata : FsLocal execRxnodata :=
  fsLocal_ite (fun _ _ _ _ => rfl) (fsLocal_silent fun _ _ _ _ => rfl) (fsLocal_fault _)

/-- Entry to the fatal state appends the one FATAL. -/
theorem fsLocal_enterFatal (k : FatalKind) : FsLocal fun s => .next (s.enterFatal k) := by
  rintro s _ ⟨⟩
  exact ⟨[.fatal k], rfl, fun _ _ _ => rfl⟩

theorem fsLocal_execRxfail (k : FatalKind) : FsLocal (execRxfail k) := by
  refine fsLocal_ite (fun _ _ _ _ => rfl) ?_ (fsLocal_fault _)
  simpa only [raise_conditionOf] using fsLocal_enterFatal k

/-- Every operation but the generator's and RESET, which writes GACC (R36). -/
theorem fsLocal_exec {i : Instr} (hi : i.format ≠ .gen) (hr : i ≠ .reset) : FsLocal (exec i) := by
  cases i with
  | pop => exact fsLocal_execPop
  | next => exact fsLocal_execNext
  | rxchunk bs => exact fsLocal_execRxchunk bs
  | rxnodata => exact fsLocal_execRxnodata
  | rxfail k => exact fsLocal_execRxfail k
  | reset => exact absurd rfl hr
  | gstart | gbyte _ | gend => exact absurd rfl hi
  | sync => exact fsLocal_perform .sync
  | skip b => exact fsLocal_perform (.skip b)
  | hdr b => exact fsLocal_perform (.hdr b)
  | len b => exact fsLocal_perform (.len b)
  | pay b => exact fsLocal_perform (.pay b)
  | accept b => exact fsLocal_perform (.accept b)
  | drop b => exact fsLocal_perform (.drop b)

/-! ### The operations of GEN -/

/-- A generator operation completes everywhere; it reads GACC alone, writes GACC and appends to the TX stream alone (R118 to
R120). -/
theorem exec_gen {i : Instr} (hi : i.format = .gen) (a : Byte) :
    ∃ v os, framesOf os = [] ∧ fatalsOf os = [] ∧
      ∀ s : State, s.gacc = a → exec i s = .next (s.surround v (s.out ++ os) s.pending) := by
  cases i with
  | gstart =>
    refine ⟨Config.seed, [], rfl, rfl, fun s _ => ?_⟩
    rw [List.append_nil]; rfl
  | gbyte b => exact ⟨a ^^^ b, [.tx b], rfl, rfl, by rintro s rfl; rfl⟩
  | gend => exact ⟨Config.seed, [.tx a], rfl, rfl, by rintro s rfl; rfl⟩
  | _ => cases hi

/-- Settles O27: the operation of FS is local, so it completes in the state the generator leaves with the same outputs
appended, and the generator, which reads GACC alone, does in its result what it did before. -/
theorem generatorCommutesWithFs : Obligations.GeneratorCommutesWithFs := by
  intro s t g i hg hi hr h
  obtain ⟨os, htx, hs⟩ := fsLocal_exec hi hr s t h
  obtain ⟨hgacc, hout, hpending⟩ := items_of_fsLocal_run h hs
  obtain ⟨v, ts, hframes, hfatals, hgen⟩ := exec_gen hg s.gacc
  refine ⟨_, _, _, hgen s rfl, hs _ _ _, hgen t hgacc, ?_, ?_, ?_, ?_⟩
  · rw [hpending]; rfl
  · simp [hout, hframes]
  · simp [hout, hfatals]
  · simp [hout, htx]

end Sys2Proof.Machine
end

section
/-! The arrivals to come decide whose turn it is and nothing else, so a sequence of events can be run from its schedule
(R17, R160; log 2). -/

namespace Sys2Proof.Machine

/-- An operation neither reads nor changes the arrivals to come (log 1). -/
theorem exec_withPending {i : Instr} {s t : State} (h : exec i s = .next t) (p : List Arrival) :
    exec i { s with pending := p } = .next { t with pending := p } := by
  by_cases hr : i = .reset
  · subst hr; cases h; rfl
  by_cases hi : i.format = .gen
  · obtain ⟨v, os, -, -, hgen⟩ := exec_gen hi s.gacc
    rw [hgen s rfl] at h
    cases h
    exact hgen { s with pending := p } rfl
  · obtain ⟨os, -, hs⟩ := fsLocal_exec hi hr s t h
    obtain ⟨hgacc, hout, -⟩ := items_of_fsLocal_run h hs
    have hp : exec i { s with pending := p } = .next (t.surround s.gacc (s.out ++ os) p) := hs s.gacc s.out p
    rw [hp, ← hgacc, ← hout]; rfl

theorem react_eq_next {e : Event} {s t : State} :
    react e s = .next t ↔ ∃ i, decode s.ctx e = .ok i ∧ exec i s = .next t := by
  simp only [react]
  split <;> simp_all

theorem react_withPending {e : Event} {s t : State} (h : react e s = .next t) (p : List Arrival) :
    react e { s with pending := p } = .next { t with pending := p } := by
  obtain ⟨i, hd, hx⟩ := react_eq_next.1 h
  exact react_eq_next.2 ⟨i, hd, exec_withPending hx p⟩

theorem react_pending {e : Event} {s t : State} (h : react e s = .next t) : t.pending = s.pending := by
  have h' : react e s = .next { t with pending := s.pending } := react_withPending h s.pending
  exact congrArg (·.pending) (Host.Outcome.next.inj (h.symm.trans h'))

/-- POP reacts only where it is enabled (R156). -/
theorem popReady_of_react_pop {s t : State} (h : react .pop s = .next t) : s.popReady = true := by
  obtain ⟨i, hd, -⟩ := react_eq_next.1 h
  rw [decode_pop] at hd
  split at hd
  · rename_i hc; exact hc.2
  · cases hd

/-- With a schedule pending, one step is the reaction to its first event, and the rest of the schedule stays pending. -/
theorem step_schedule_cons {e : Event} {es : List Event} {s t : State} (hb : ∀ b, e ≠ .byte b)
    (h : react e s = .next t) :
    step { s with pending := schedule (e :: es) } = .next { t with pending := schedule es } := by
  have hreact := react_withPending h (schedule es)
  cases e with
  | input e =>
    have hturn : ({ s with pending := schedule (.input e :: es) } : State).turn = .take e (schedule es) :=
      turn_schedule_input rfl
    simp only [step, hturn, hreact]
  | pop =>
    have hready : s.popReady = true := popReady_of_react_pop h
    have hturn : ({ s with pending := schedule (.pop :: es) } : State).turn = .pop (schedule es) :=
      turn_schedule_pop rfl hready
    simp only [step, hturn, hreact]
  | byte b => exact absurd rfl (hb b)

/-- A run begins with a step. -/
theorem run_succ_of_step {s u : State} (n : Nat) (h : step s = .next u) :
    Host.Core.run core (n + 1) s = Host.Core.run core n u := by
  have h' : core.step s = .next u := h
  simp only [Host.Core.run, h']

/-- Settles O57, by induction on the sequence of events: each step takes the schedule's first event. -/
theorem everyInterleavingIsARun : Obligations.EveryInterleavingIsARun := by
  intro s t es
  induction es generalizing s with
  | nil =>
    rintro hp - ⟨⟩
    exact congrArg Host.Outcome.next (by rw [schedule, ← hp])
  | cons e es ih =>
    intro hp hb h
    obtain ⟨u, hu, ht⟩ := andThen_eq_next.1 h
    rw [List.length_cons, run_succ_of_step es.length
      (step_schedule_cons (fun b he => hb b (he ▸ List.mem_cons_self)) hu)]
    exact ih u ((react_pending hu).trans hp) (fun b hm => hb b (List.mem_cons_of_mem e hm)) ht

end Sys2Proof.Machine
end

section
/-! Who touches which state (R35): the effect of each operation, read off the inversions of the meanings once, so that the
statements about the registers and the invariants split on what happened and on no meaning again. -/

namespace Sys2Proof.Machine

/-- The state after the one store form of the block (R65). -/
def State.storeByte (b : Byte) (s : State) : State := s.gather (Buf.write s.buf s.cnt.toNat b) (s.acc ^^^ b)

@[simp] theorem State.storeByte_cnt (b : Byte) (s : State) : (s.storeByte b).cnt = s.cnt + 1 := rfl
@[simp] theorem State.storeByte_demand (b : Byte) (s : State) : (s.storeByte b).demand = s.demand := rfl

/-- What a framing operation that completes in `s` found, and what it leaves (R131 to R138). -/
inductive FramingEffect (s : State) : Instr → State → Prop
  | sync : s.framingIn .hunt = true → FramingEffect s .sync (s.startCandidate.note .sync)
  | skip (b : Byte) : s.framingIn .hunt = true → b ≠ Config.sentinel → FramingEffect s (.skip b) (s.note .skip)
  | hdr (b : Byte) : s.framingIn .header = true → FramingEffect s (.hdr b) ((s.storeByte b).note .hdr)
  | len (b : Byte) : s.framingIn .length = true → FramingEffect s (.len b) (((s.storeByte b).latchLen b).note .len)
  | pay (b : Byte) : s.framingIn .payload = true → FramingEffect s (.pay b) ((s.storeByte b).note .pay)
  | accept (b : Byte) (f : List Byte) : s.framingIn .checksum = true → foldsToZero s.acc b = true →
      (s.storeByte b).candidate = some f →
      FramingEffect s (.accept b) (((((s.storeByte b).emit (.frame f)).endCandidate).clearDemand).note .accept)
  | drop (b : Byte) : s.framingIn .checksum = true → foldsToZero s.acc b = false →
      FramingEffect s (.drop b) (((s.storeByte b).endCandidate).note .drop)

/-- What an operation that completes in `s` found, and what it leaves (R35). -/
inductive Effect (s : State) : Instr → State → Prop
  | framing {i : Instr} {t : State} : FramingEffect s i t → Effect s i t
  | pop {b : Byte} {rest : List Byte} {i : Instr} {t : State} : s.popReady = true → s.rxq = b :: rest →
      decode s.ctx (.byte b) = .ok i → FramingEffect { s with rxq := rest } i t → Effect s .pop t
  | demanded : s.fault = .none → Effect s .next s.setDemand
  | reported (k : FatalKind) : s.fault = .fatal k → Effect s .next (s.emit (.fatal k))
  | received (bs : List Byte) : s.rdreq = true → chunkAdmitted bs = true → Effect s (.rxchunk bs) (s.pushRx bs)
  | noData : s.rdreq = true → Effect s .rxnodata s
  | failed (k : FatalKind) : s.rdreq = true → Effect s (.rxfail k) (s.enterFatal k)
  | reset : Effect s .reset s.resetBlock
  | gstart : Effect s .gstart (s.setGacc Config.seed)
  | gbyte (b : Byte) : Effect s (.gbyte b) ((s.setGacc (s.gacc ^^^ b)).emit (.tx b))
  | gend : Effect s .gend ((s.emit (.tx s.gacc)).setGacc Config.seed)

theorem framingEffect_of_perform {i : Instr} {s t : State} (h : perform i s = .next t) : FramingEffect s i t := by
  cases i with
  | sync => obtain ⟨hp, rfl⟩ := execSync_inv h; exact .sync hp
  | skip b => obtain ⟨hp, hb, rfl⟩ := execSkip_inv h; exact .skip b hp hb
  | hdr b => obtain ⟨hp, rfl⟩ := execHdr_inv h; exact .hdr b hp
  | len b => obtain ⟨hp, rfl⟩ := execLen_inv h; exact .len b hp
  | pay b => obtain ⟨hp, rfl⟩ := execPay_inv h; exact .pay b hp
  | accept b => obtain ⟨hp, hz, f, hf, rfl⟩ := execAccept_inv h; exact .accept b f hp hz hf
  | drop b => obtain ⟨hp, hz, rfl⟩ := execDrop_inv h; exact .drop b hp hz
  | _ => cases h

theorem effect_of_exec {i : Instr} {s t : State} (h : exec i s = .next t) : Effect s i t := by
  cases i with
  | pop =>
    obtain ⟨hr, b, rest, i, hq, hd, hp⟩ := execPop_inv h
    exact .pop hr hq hd (framingEffect_of_perform hp)
  | next =>
    obtain ⟨hf, rfl⟩ | ⟨k, hf, rfl⟩ := execNext_inv h
    · exact .demanded hf
    · exact .reported k hf
  | rxchunk bs => obtain ⟨hr, hb, rfl⟩ := execRxchunk_inv h; exact .received bs hr hb
  | rxnodata => obtain ⟨hr, rfl⟩ := execRxnodata_inv h; exact .noData hr
  | rxfail k => obtain ⟨hr, rfl⟩ := execRxfail_inv h; exact .failed k hr
  | reset => cases h; exact .reset
  | gstart => cases h; exact .gstart
  | gbyte b => cases h; exact .gbyte b
  | gend => cases h; exact .gend
  | sync | skip _ | hdr _ | len _ | pay _ | accept _ | drop _ => exact .framing (framingEffect_of_perform h)

/-! ### Which operation writes which item -/

theorem FramingEffect.rxq_eq {s t : State} {i : Instr} (h : FramingEffect s i t) : t.rxq = s.rxq := by
  cases h <;> rfl

theorem FramingEffect.fault_eq {s t : State} {i : Instr} (h : FramingEffect s i t) : t.fault = s.fault := by
  cases h <;> rfl

theorem FramingEffect.demand_eq_or_accept {s t : State} {i : Instr} (h : FramingEffect s i t) :
    t.demand = s.demand ∨ ∃ b, i = .accept b := by
  cases h with
  | accept b => exact .inr ⟨b, rfl⟩
  | _ => exact .inl rfl

theorem FramingEffect.len_eq_or_len {s t : State} {i : Instr} (h : FramingEffect s i t) :
    t.len = s.len ∨ ∃ b, i = .len b ∧ t.len = b := by
  cases h with
  | len b => exact .inr ⟨b, rfl, rfl⟩
  | _ => exact .inl rfl

theorem operand_of_instrOf_accept {op : OpName} {b b' : Byte} (h : instrOf op (.byte b) = some (.accept b')) : b' = b := by
  cases op <;> cases h
  rfl

/-- An ACCEPT selected by a byte carries that byte. -/
theorem operand_of_decode_accept {c : Ctx} {b b' : Byte} (h : decode c (.byte b) = .ok (.accept b')) : b' = b := by
  simp only [decode] at h
  split at h
  · rename_i i hi
    cases h
    obtain ⟨r, -, hr⟩ := Option.bind_eq_some_iff.1 hi
    exact operand_of_instrOf_accept hr
  · cases h

/-- R29: NEXT, ACCEPT (alone or in POP), RXFAIL and RESET write DEMAND. -/
theorem Effect.demand_writer {s t : State} {i : Instr} (h : Effect s i t) (hne : t.demand ≠ s.demand) :
    i = .next ∨ (∃ b, i = .accept b) ∨ (∃ k, i = .rxfail k) ∨ i = .reset ∨
      (i = .pop ∧ ∃ b rest, s.rxq = b :: rest ∧ decode s.ctx (.byte b) = .ok (.accept b)) := by
  cases h with
  | framing hf => exact .inr (.inl (hf.demand_eq_or_accept.resolve_left hne))
  | pop _ hq hd hf =>
    obtain ⟨c, rfl⟩ := hf.demand_eq_or_accept.resolve_left hne
    obtain rfl := operand_of_decode_accept hd
    exact .inr (.inr (.inr (.inr ⟨rfl, _, _, hq, hd⟩)))
  | demanded | reported => exact .inl rfl
  | failed k => exact .inr (.inr (.inl ⟨k, rfl⟩))
  | reset => exact .inr (.inr (.inr (.inl rfl)))
  | received | noData | gstart | gbyte | gend => exact absurd rfl hne

/-- R30: RXFAIL and RESET write FAULT. -/
theorem Effect.fault_writer {s t : State} {i : Instr} (h : Effect s i t) (hne : t.fault ≠ s.fault) :
    (∃ k, i = .rxfail k ∧ t.fault = .fatal k) ∨ (i = .reset ∧ t.fault = .none) := by
  cases h with
  | framing hf => exact absurd hf.fault_eq hne
  | pop _ _ _ hf => exact absurd hf.fault_eq hne
  | failed k => exact .inl ⟨k, rfl, rfl⟩
  | reset => exact .inr ⟨rfl, rfl⟩
  | demanded | reported | received | noData | gstart | gbyte | gend => exact absurd rfl hne

/-- R27: POP, RXCHUNK and RESET write RXQ. -/
theorem Effect.rxq_writer {s t : State} {i : Instr} (h : Effect s i t) (hne : t.rxq ≠ s.rxq) :
    i = .pop ∨ i = .reset ∨ ∃ bs, i = .rxchunk bs := by
  cases h with
  | framing hf => exact absurd hf.rxq_eq hne
  | pop => exact .inl rfl
  | received bs => exact .inr (.inr ⟨bs, rfl⟩)
  | reset => exact .inr (.inl rfl)
  | demanded | reported | noData | failed | gstart | gbyte | gend => exact absurd rfl hne

/-- R23: LEN, on its own or through POP, writes the register LEN. -/
theorem Effect.len_writer {s t : State} {i : Instr} (h : Effect s i t) (hne : t.len ≠ s.len) :
    (∃ b, i = .len b ∧ t.len = b) ∨ i = .pop := by
  cases h with
  | framing hf => exact .inl (hf.len_eq_or_len.resolve_left hne)
  | pop => exact .inr rfl
  | demanded | reported | received | noData | failed | reset | gstart | gbyte | gend => exact absurd rfl hne

/-- R31: the operations of GEN and RESET write GACC. -/
theorem gacc_writer {s t : State} {i : Instr} (h : exec i s = .next t) (hne : t.gacc ≠ s.gacc) :
    i.format = .gen ∨ i = .reset := by
  by_contra hi
  obtain ⟨hg, hr⟩ := not_or.1 hi
  obtain ⟨os, -, hs⟩ := fsLocal_exec hg hr s t h
  exact hne (items_of_fsLocal_run h hs).1

/-- The arrivals to come are no operation's to touch (log 1). -/
theorem exec_pending {i : Instr} {s t : State} (h : exec i s = .next t) : t.pending = s.pending := by
  have h' : exec i s = .next { t with pending := s.pending } := exec_withPending h s.pending
  exact congrArg (·.pending) (Host.Outcome.next.inj (h.symm.trans h'))

/-- Settles O40, register by register, from the effect of the operation. -/
theorem whoWritesTheFlagsAndRegisters : Obligations.WhoWritesTheFlagsAndRegisters := by
  intro s t i h
  have he := effect_of_exec h
  exact ⟨he.demand_writer, he.fault_writer, gacc_writer h, he.rxq_writer, he.len_writer, exec_pending h⟩

/-- Settles O39: an operation that stores nothing leaves BUF as it is, and one that ends a candidate leaves it empty. -/
theorem otherOperationsStoreNothing : Obligations.OtherOperationsStoreNothing := by
  intro s t i h
  cases effect_of_exec h with
  | framing hf =>
    cases hf with
    | sync | hdr | len | pay => trivial
    | skip => exact fun _ => rfl
    | accept | drop => exact Buf.read_nil
  | pop => trivial
  | demanded | reported | received | noData | gstart | gbyte | gend => exact fun _ => rfl
  | failed | reset => exact Buf.read_nil

end Sys2Proof.Machine
end

section
/-! The invariants of R32: the reset state meets them, every operation keeps them, and so does every step. -/

namespace Sys2Proof.Machine

/-! ### The reset state (R36) -/

theorem lenValue_of_no_candidate {s : State} (h : s.cnt = 0) : s.lenValue = none := by
  simp [State.lenValue, h]

theorem accValue_of_no_candidate {s : State} (h : s.cnt = 0) : s.accValue = none := by
  simp [State.accValue, h]

/-- Settles O1: the power-up state and the state a RESET leaves have the same eight items, and no candidate. -/
theorem resetStateHoldsItsRuleValues : Obligations.ResetStateHoldsItsRuleValues := by
  rintro r (rfl | ⟨s, ⟨⟩⟩) <;>
    exact ⟨rfl, rfl, Buf.read_nil, lenValue_of_no_candidate rfl, accValue_of_no_candidate rfl, rfl, rfl, rfl, rfl⟩

/-- Without a candidate only item 6 of R32 is left to show. -/
theorem framed_of_no_candidate {s : State} (hb : s.buf = []) (hc : s.cnt = 0)
    (hs : s.fault ≠ .none → s.rxq = [] ∧ s.demand = false) : s.Framed where
  count := by simp [hc]
  form := by simp [hb]
  cells := by simp [hb, hc]
  length := by simp [hc]
  sentinel h := absurd hc h
  accumulator h := absurd hc h
  idle _ := hc
  stopped h := ⟨hc, hs h⟩

/-- Settles O46: the reset state has no candidate, no fault and an empty backlog. -/
theorem resetMeetsTheInvariants : Obligations.ResetMeetsTheInvariants :=
  ⟨framed_of_no_candidate rfl rfl fun h => absurd rfl h, Nat.zero_le _⟩

/-! ### The ways to change a state that keep the invariants -/

/-- The invariants read only the candidate, RXQ, DEMAND and FAULT: with the same candidate, items 5 and 6 are left to show. -/
theorem State.Framed.of_same_candidate {s t : State} (h : s.Framed) (hb : t.buf = s.buf) (hc : t.cnt = s.cnt)
    (hl : t.len = s.len) (ha : t.acc = s.acc) (hd : t.demand = false → s.demand = false)
    (hs : t.fault ≠ .none → t.rxq = [] ∧ t.demand = false) : t.Framed where
  count := hc ▸ h.count
  form := hb ▸ h.form
  cells := by rw [hb, hc]; exact h.cells
  length := by rw [hb, hc, hl]; exact h.length
  sentinel := by rw [hb, hc]; exact h.sentinel
  accumulator := by rw [State.candidate, hb, hc, ha]; exact h.accumulator
  idle ht := hc ▸ h.idle (hd ht)
  stopped ht := ⟨hc ▸ h.idle (hd (hs ht).2), hs ht⟩

theorem State.Framed.note {s : State} (h : s.Framed) (op : OpName) : (s.note op).Framed :=
  h.of_same_candidate rfl rfl rfl rfl id fun hf => (h.stopped hf).2

theorem State.Framed.surround {s : State} (h : s.Framed) (g : Byte) (o : List Output) (p : List Arrival) :
    (s.surround g o p).Framed :=
  h.of_same_candidate rfl rfl rfl rfl id fun hf => (h.stopped hf).2

/-- Outside the fatal state the backlog may change at will. -/
theorem State.Framed.withRxq {s : State} (h : s.Framed) (hf : s.fault = .none) (q : List Byte) :
    ({ s with rxq := q } : State).Framed :=
  h.of_same_candidate rfl rfl rfl rfl id fun hne => absurd hf hne

theorem State.Framed.buf_nil {s : State} (h : s.Framed) (hc : s.cnt = 0) : s.buf = [] := by
  simpa [hc] using h.cells

/-- SYNC stores the sentinel in an empty BUF, and ACC is its fold. -/
theorem State.Framed.startCandidate {s : State} (h : s.Framed) (hc : s.cnt = 0) (hd : s.demand = true)
    (hf : s.fault = .none) : s.startCandidate.Framed := by
  have hb : s.startCandidate.buf = [(0, Config.sentinel)] := by simp [h.buf_nil hc, Buf.write]
  exact
    { count := by simp
      form := by rw [hb]; rfl
      cells := by rw [hb]; rfl
      length := fun h5 => absurd h5 (by rw [State.startCandidate_cnt]; decide)
      sentinel := fun _ => by rw [hb]; rfl
      accumulator := fun _ => by rw [State.candidate, hb]; rfl
      idle := fun hd' => by simp [hd] at hd'
      stopped := fun hf' => absurd hf hf' }

/-- The validator's fold over one byte more (R26, R110). -/
theorem fold_append_byte (a b : Byte) (f : List Byte) : fold a (f ++ [b]) = fold a f ^^^ b := by
  induction f generalizing a with
  | nil => rfl
  | cons c f ih => exact ih (a ^^^ c)

/-- The store form extends the candidate by the byte stored. -/
theorem candidate_storeByte {s : State} {f : List Byte} (b : Byte) (hc : s.cnt.toNat ≤ 260) (h : s.candidate = some f) :
    (s.storeByte b).candidate = some (f ++ [b]) := by
  have hcnt : (s.cnt + 1).toNat = s.cnt.toNat + 1 := by bv_omega
  rw [State.candidate, State.storeByte_cnt, hcnt]
  exact Buf.block_write b h

/-- The store form, with `l` in LEN, keeps the invariants while a candidate is gathered and, from BUF[4] on, `l` is the length
byte and CNT is below the checksum position. -/
theorem State.Framed.storeByte {s : State} {b l : Byte} (h : s.Framed) (hd : s.demand = true) (hf : s.fault = .none)
    (h1 : 1 ≤ s.cnt.toNat) (h2 : s.cnt.toNat ≤ 259)
    (hl : 4 ≤ s.cnt.toNat → Buf.read (s.storeByte b).buf 4 = some l ∧ s.cnt.toNat < 5 + l.toNat) :
    ((s.storeByte b).latchLen l).Framed := by
  have hcnt : (s.cnt + 1).toNat = s.cnt.toNat + 1 := by bv_omega
  have hne : s.cnt ≠ 0 := by rintro h0; simp [h0] at h1
  have hbuf : (s.storeByte b).buf = s.buf ++ [(s.cnt.toNat, b)] := Buf.write_append b fun c hc => by
    have : c.1 ∈ s.buf.map Prod.fst := List.mem_map_of_mem hc
    simpa [h.cells] using this
  obtain ⟨f, hcand, hacc⟩ := Option.map_eq_some_iff.1 (h.accumulator hne)
  exact
    { count := by rw [State.latchLen_cnt, State.storeByte_cnt, hcnt]; omega
      form := Buf.wf_write b h.form (Nat.lt_of_le_of_lt h2 (by decide))
      cells := by
        rw [State.latchLen_buf, State.latchLen_cnt, State.storeByte_cnt, hbuf, hcnt, List.range_succ, List.map_append,
          h.cells]
        rfl
      length := fun h5 => by
        have h4 : 4 ≤ s.cnt.toNat := by
          have : 5 ≤ (s.cnt + 1).toNat := BitVec.le_def.1 h5
          omega
        obtain ⟨hread, hlt⟩ := hl h4
        refine ⟨hread, BitVec.le_def.2 ?_⟩
        rw [State.latchLen_cnt, State.latchLen_len, State.storeByte_cnt, hcnt, checksumAt_toNat]
        omega
      sentinel := fun _ => (Buf.read_write_ne s.buf b (by omega)).trans (h.sentinel hne)
      accumulator := fun _ => by
        change (s.storeByte b).candidate.map compute = some (s.acc ^^^ b)
        rw [candidate_storeByte b h.count hcand, Option.map_some, compute, fold_append_byte, ← compute, hacc]
      idle := fun hd' => by simp [hd] at hd'
      stopped := fun hf' => absurd hf hf' }

/-! ### Every operation -/

theorem live_of_framingIn {s : State} {p : Phase} (h : s.framingIn p = true) (hp : p ≠ .fault) :
    s.demand = true ∧ s.fault = .none := by
  obtain ⟨hd, hph⟩ := (framingIn_iff s p).1 h
  refine ⟨hd, by_contra fun hf => hp ?_⟩
  exact Option.some.inj (hph.symm.trans ((phase_fault_iff s).2 hf))

theorem FramingEffect.framed {s t : State} {i : Instr} (h : FramingEffect s i t) (hs : s.Framed) : t.Framed := by
  cases h with
  | sync hp =>
    obtain ⟨hd, hf⟩ := live_of_framingIn hp nofun
    have hc : s.cnt = 0 := ((phase_hunt_iff s).1 ((framingIn_iff s _).1 hp).2).2
    exact (hs.startCandidate hc hd hf).note _
  | skip => exact hs.note _
  | hdr b hp =>
    obtain ⟨hd, hf⟩ := live_of_framingIn hp nofun
    obtain ⟨-, h1, h3⟩ := (phase_header_iff s).1 ((framingIn_iff s _).1 hp).2
    exact (hs.storeByte (l := s.len) hd hf h1 (by omega) (by omega)).note _
  | len b hp =>
    obtain ⟨hd, hf⟩ := live_of_framingIn hp nofun
    obtain ⟨-, h4⟩ := (phase_length_iff s).1 ((framingIn_iff s _).1 hp).2
    have hread : Buf.read (s.storeByte b).buf 4 = some b := h4 ▸ Buf.read_write_same s.buf s.cnt.toNat b
    exact (hs.storeByte hd hf (by omega) (by omega) fun _ => ⟨hread, by omega⟩).note _
  | pay b hp =>
    obtain ⟨hd, hf⟩ := live_of_framingIn hp nofun
    obtain ⟨-, h5, hlt⟩ := (phase_payload_iff s).1 ((framingIn_iff s _).1 hp).2
    have hread : Buf.read (s.storeByte b).buf 4 = some s.len :=
      (Buf.read_write_ne s.buf b (by omega)).trans (hs.length (BitVec.le_def.2 h5)).1
    have hl : s.len.toNat < 256 := s.len.isLt
    exact (hs.storeByte (l := s.len) hd hf (by omega) (by omega) fun _ => ⟨hread, hlt⟩).note _
  | accept b f hp _ _ =>
    exact framed_of_no_candidate rfl rfl fun hf => absurd (live_of_framingIn hp nofun).2 hf
  | drop b hp _ =>
    exact framed_of_no_candidate rfl rfl fun hf => absurd (live_of_framingIn hp nofun).2 hf

theorem Effect.framed {s t : State} {i : Instr} (h : Effect s i t) (hs : s.Framed) : t.Framed := by
  cases h with
  | framing hf => exact hf.framed hs
  | pop hr _ _ hf => exact hf.framed (hs.withRxq ((popReady_iff s).1 hr).2.1 _)
  | demanded hf => exact hs.of_same_candidate rfl rfl rfl rfl nofun fun hne => absurd hf hne
  | reported k => exact hs.surround s.gacc (s.out ++ [.fatal k]) s.pending
  | received bs hr => exact hs.withRxq ((rdreq_iff s).1 hr).2.1 (s.rxq ++ bs)
  | noData => exact hs
  | failed k hr => exact framed_of_no_candidate rfl rfl fun _ => ⟨((rdreq_iff s).1 hr).2.2, rfl⟩
  | reset => exact framed_of_no_candidate rfl rfl fun hf => absurd rfl hf
  | gstart => exact hs.surround Config.seed s.out s.pending
  | gbyte b => exact hs.surround (s.gacc ^^^ b) (s.out ++ [.tx b]) s.pending
  | gend => exact hs.surround Config.seed (s.out ++ [.tx s.gacc]) s.pending

/-- Item 4 of R32: RXQ grows by RXCHUNK alone, which finds it empty and brings at most RX_CHUNK_MAX bytes. -/
theorem Effect.backlog {s t : State} {i : Instr} (h : Effect s i t) (hs : s.rxq.length ≤ Config.rxqDepth) :
    t.rxq.length ≤ Config.rxqDepth := by
  cases h with
  | framing hf => exact hf.rxq_eq ▸ hs
  | pop _ hq _ hf =>
    rw [hf.rxq_eq]
    exact Nat.le_of_succ_le (by simpa [hq] using hs)
  | received bs hr hb =>
    simp only [chunkAdmitted, Bool.and_eq_true, decide_eq_true_eq] at hb
    rw [State.pushRx_rxq, ((rdreq_iff s).1 hr).2.2]
    exact hb.2
  | reset => exact Nat.zero_le _
  | demanded | reported | noData | failed | gstart | gbyte | gend => exact hs

/-- Settles O47: the operation's effect keeps items 1 to 3, 5 and 6, and the bound on the backlog. -/
theorem everyOperationKeepsTheInvariants : Obligations.EveryOperationKeepsTheInvariants := by
  intro s t i h
  have he := effect_of_exec h
  exact ⟨he.framed, fun hs => ⟨he.framed hs.toFramed, he.backlog hs.backlog⟩⟩

/-! ### Every step -/

/-- What a step can do: it holds, or it takes its turn off the arrivals and performs an operation. -/
theorem step_cases {s t : State} (h : step s = .next t) :
    t = s ∨ ∃ p i, exec i { s with pending := p } = .next t := by
  simp only [step] at h
  split at h
  · obtain ⟨i, -, hx⟩ := react_eq_next.1 h
    exact .inr ⟨_, i, hx⟩
  · obtain ⟨i, -, hx⟩ := react_eq_next.1 h
    exact .inr ⟨_, i, hx⟩
  · cases h; exact .inl rfl

/-- Settles O48: a hold changes nothing, the invariants do not speak of the arrivals, and every operation keeps them. -/
theorem stepKeepsTheInvariants : Obligations.StepKeepsTheInvariants := by
  intro s t h
  obtain rfl | ⟨p, i, hx⟩ := step_cases h
  · exact ⟨id, id⟩
  · obtain ⟨hframed, hinv⟩ := everyOperationKeepsTheInvariants _ _ i hx
    have hp (hs : s.Framed) : ({ s with pending := p } : State).Framed := hs.surround s.gacc s.out p
    exact ⟨fun hs => hframed (hp hs), fun hs => hinv ⟨hp hs.toFramed, hs.backlog⟩⟩

end Sys2Proof.Machine
end

section
/-! The cells of BUF that a storing operation leaves (R21, R65): it writes one cell, and the other cells keep what they held. -/

namespace Sys2Proof.Machine

/-- The one cell written holds the byte, and every other cell reads as before. -/
theorem Buf.read_of_eq_write {m m' : List Host.Cell} {i : Nat} {b : Byte} (h : m' = Buf.write m i b) :
    Buf.read m' i = some b ∧ ∀ a, a ≠ i → Buf.read m' a = Buf.read m a := by
  subst h
  exact ⟨Buf.read_write_same m i b, fun _ ha => Buf.read_write_ne m b ha⟩

/-- HDR, LEN and PAY share the one store form of the block, at index CNT (R65). -/
theorem buf_eq_write_of_exec_store {s t : State} {b : Byte}
    (h : exec (.hdr b) s = .next t ∨ exec (.len b) s = .next t ∨ exec (.pay b) s = .next t) :
    t.buf = Buf.write s.buf s.cnt.toNat b := by
  obtain hhdr | hlen | hpay := h
  · obtain ⟨-, rfl⟩ := execHdr_inv hhdr; rfl
  · obtain ⟨-, rfl⟩ := execLen_inv hlen; rfl
  · obtain ⟨-, rfl⟩ := execPay_inv hpay; rfl

/-- SYNC stores the sentinel at index 0, whatever BUF held (R132). -/
theorem buf_eq_write_of_exec_sync {s t : State} (h : exec .sync s = .next t) :
    t.buf = Buf.write s.buf 0 Config.sentinel := by
  obtain ⟨-, rfl⟩ := execSync_inv h; rfl

/-- Settles O38: each storing operation is one write to BUF, at CNT for HDR, LEN and PAY and at 0 for SYNC. -/
theorem storingOperationsWriteOneCell : Obligations.StoringOperationsWriteOneCell := by
  intro s t b
  exact ⟨fun h => Buf.read_of_eq_write (buf_eq_write_of_exec_store h),
    fun h => Buf.read_of_eq_write (buf_eq_write_of_exec_sync h)⟩

end Sys2Proof.Machine
end

section
/-! The text of a trace read back (R100): keyword by keyword, digit by digit, byte by byte, event by
event; and an operation decoded from the event that carries it (R95). -/

namespace Sys2Proof

open Machine

/-! ### Keywords -/

/-- Two texts differ at a position that both of them have, so no text begins with both. -/
def clash : List Byte → List Byte → Bool
  | k :: kw, c :: cs => k != c || clash kw cs
  | _, _ => false

theorem expect_append_self (kw rest : List Byte) : expect kw (kw ++ rest) = some rest := by
  induction kw with
  | nil => rfl
  | cons k kw ih => simpa [expect] using ih

theorem expect_append_of_clash {kw cs : List Byte} (rest : List Byte) (h : clash kw cs = true) :
    expect kw (cs ++ rest) = none := by
  fun_induction clash kw cs with
  | case1 k kw c cs ih =>
    by_cases hkc : k = c
    · simpa [expect, hkc] using ih (by simpa [hkc] using h)
    · simp [expect, hkc]
  | case2 => cases h

/-! ### Bytes -/

theorem hexValue_hexDigit {n : Nat} (h : n < 16) : hexValue (hexDigit n) = some n := by
  have hall : ∀ m < 16, hexValue (hexDigit m) = some m := by decide
  exact hall n h

theorem hexValue_high (b : Byte) : hexValue (hexDigit (b.toNat / 16)) = some (b.toNat / 16) := by
  have : b.toNat < 256 := b.isLt
  exact hexValue_hexDigit (by omega)

theorem hexValue_low (b : Byte) : hexValue (hexDigit (b.toNat % 16)) = some (b.toNat % 16) :=
  hexValue_hexDigit (Nat.mod_lt _ (by decide))

/-- A byte is the number its two digits write. -/
theorem byte_of_digits (b : Byte) : BitVec.ofNat 8 (16 * (b.toNat / 16) + b.toNat % 16) = b := by
  rw [Nat.div_add_mod, BitVec.ofNat_toNat, BitVec.setWidth_eq]

theorem readByte_writeByte (b : Byte) (rest : List Byte) : readByte (writeByte b ++ rest) = some (b, rest) := by
  simp [readByte, writeByte, hexValue_high, hexValue_low, byte_of_digits]

theorem readBytesClose_writeBytesClose {bs : List Byte} (h : bs ≠ []) (rest : List Byte) :
    readBytesClose (writeBytesClose bs ++ rest) = some (bs, rest) := by
  fun_induction writeBytesClose bs with
  | case1 => exact absurd rfl h
  | case2 b => simp [readBytesClose, writeByte, hexValue_high, hexValue_low, byte_of_digits]
  | case3 b b' bs ih => simp [readBytesClose, writeByte, hexValue_high, hexValue_low, byte_of_digits, ih]

/-! ### Events -/

/-- The keywords clash pairwise, so only the form the event was written in reads it; a chunk of no bytes has no form. -/
theorem readEvent_writeEvent {e : InputEvent} (h : ∀ bs, e = .rxchunk bs → bs ≠ []) (rest : List Byte) :
    readEvent (writeEvent e ++ rest) = some (e, rest) := by
  cases e with
  | rxchunk bs =>
    have hbs := readBytesClose_writeBytesClose (h bs rfl) rest
    simp (disch := decide) [writeEvent, readEvent, readFixed, readRxchunk, expect_append_of_clash,
      expect_append_self, hbs]
  | gbyte b =>
    have hb := readByte_writeByte b (0x29#8 :: rest)
    simp (disch := decide) [writeEvent, readEvent, readFixed, readRxchunk, readGbyte,
      expect_append_of_clash, expect_append_self, hb]
  | rxfail k =>
    cases k <;>
      simp (disch := decide) [writeEvent, readEvent, readFixed, readRxchunk, expect_append_of_clash, expect_append_self]
  | reset | next | rxnodata | gstart | gend =>
    simp (disch := decide) [writeEvent, readEvent, readFixed, readRxchunk, readGbyte,
      expect_append_of_clash, expect_append_self]

/-! ### Operations -/

/-- The table selects the operation by the event that carries it, wherever its own conditions hold (R95). -/
theorem decode_event {i : Instr} {c : Ctx} (hwf : i.wf = true) (hsel : i.selectedIn c = true) :
    decode c i.event = .ok i := by
  cases i with
  | sync =>
    have hph : c.phase = some .hunt := by simpa [Instr.selectedIn] using hsel
    simp [Instr.event, decode_byte_hunt _ hph]
  | skip b =>
    have hph : c.phase = some .hunt := by simpa [Instr.selectedIn] using hsel
    have hb : b ≠ Config.sentinel := by simpa [Instr.wf] using hwf
    simp [Instr.event, decode_byte_hunt _ hph, hb]
  | hdr b => exact decode_byte_header b (by simpa [Instr.selectedIn] using hsel)
  | len b => exact decode_byte_length b (by simpa [Instr.selectedIn] using hsel)
  | pay b => exact decode_byte_payload b (by simpa [Instr.selectedIn] using hsel)
  | accept b =>
    obtain ⟨hph, hacc⟩ : c.phase = some .checksum ∧ c.acc = some b := by simpa [Instr.selectedIn] using hsel
    simp [Instr.event, decode_byte_checksum b hph hacc]
  | drop b =>
    obtain ⟨⟨hph, hsome⟩, hne⟩ : (c.phase = some .checksum ∧ c.acc.isSome = true) ∧ c.acc ≠ some b := by
      simpa [Instr.selectedIn] using hsel
    obtain ⟨a, ha⟩ := Option.isSome_iff_exists.1 hsome
    have hab : a ≠ b := by simpa [ha] using hne
    simp [Instr.event, decode_byte_checksum b hph ha, hab]
  | pop => exact (decode_pop c).trans (if_pos (by simpa [Instr.selectedIn] using hsel))
  | rxchunk bs => exact (decode_rxchunk c bs).trans (if_pos (by simpa [Instr.selectedIn] using hsel))
  | rxnodata => exact (decode_rxnodata c).trans (if_pos (by simpa [Instr.selectedIn] using hsel))
  | rxfail k => exact (decode_rxfail c k).trans (if_pos (by simpa [Instr.selectedIn] using hsel))
  | next => exact decode_next c
  | reset => exact decode_reset c
  | gstart => exact decode_gstart c
  | gbyte b => exact decode_gbyte c b
  | gend => exact decode_gend c

/-- An input event is read in its own event class, with whatever stands behind it left over (R97). -/
theorem decodeBytes_writeEvent {e : InputEvent} (h : ∀ bs, e = .rxchunk bs → bs ≠ []) (c : Ctx) (rest : List Byte) :
    decodeBytes c e.format (writeEvent e ++ rest) = (decode c (.input e)).map (·, rest) := by
  have hread := readEvent_writeEvent h rest
  cases e <;> simp only [decodeBytes, InputEvent.format, hread, if_true]

/-- Settles O34: the bytes are read back as the event of the operation, and the event selects the operation. -/
theorem decodeOfEncodeIsIdentity : Obligations.DecodeOfEncodeIsIdentity := by
  intro i c rest hwf hsel
  have hd : (decode c i.event).map (·, rest) = .ok (i, rest) := by rw [decode_event hwf hsel]; rfl
  cases i with
  | sync | skip _ | hdr _ | len _ | pay _ | accept _ | drop _ | pop => exact hd
  | rxchunk bs =>
    refine (decodeBytes_writeEvent ?_ c rest).trans hd
    rintro _ ⟨⟩ rfl
    simp [Instr.wf] at hwf
  | next | rxnodata | rxfail _ | reset | gstart | gbyte _ | gend =>
    refine (decodeBytes_writeEvent ?_ c rest).trans hd
    rintro _ ⟨⟩

/-! ### Traces -/

theorem length_pos_writeEvent (e : InputEvent) : 1 ≤ (writeEvent e).length := by
  cases e with
  | rxfail k => cases k <;> exact Nat.le_add_left 1 _
  | _ => exact Nat.le_add_left 1 _

theorem length_le_writeTrace (es : List InputEvent) : es.length ≤ (writeTrace es).length := by
  fun_induction writeTrace es with
  | case1 => exact Nat.le_refl 0
  | case2 e => exact length_pos_writeEvent e
  | case3 e e' es ih => simp at ih ⊢; omega

/-- Fuel for each event of the trace is enough to read it back. -/
theorem readTraceFuel_writeTrace {es : List InputEvent} (hne : es ≠ []) (h : ∀ bs, .rxchunk bs ∈ es → bs ≠ [])
    {n : Nat} (hn : es.length ≤ n) : readTraceFuel n (writeTrace es) = some es := by
  induction n generalizing es with
  | zero => exact absurd (List.eq_nil_of_length_eq_zero (Nat.le_zero.1 hn)) hne
  | succ n ih =>
    have hread (e : InputEvent) (he : e ∈ es) (rest : List Byte) : readEvent (writeEvent e ++ rest) = some (e, rest) :=
      readEvent_writeEvent (fun bs hbs => h bs (hbs ▸ he)) rest
    match es with
    | [] => exact absurd rfl hne
    | [e] =>
      have := hread e List.mem_cons_self []
      rw [List.append_nil] at this
      simp only [readTraceFuel, writeTrace, this]
    | e :: e' :: es =>
      have htail := ih (es := e' :: es) nofun (fun bs hm => h bs (List.mem_cons_of_mem e hm)) (Nat.le_of_succ_le_succ hn)
      simp only [readTraceFuel, writeTrace, hread e List.mem_cons_self, if_true, htail, Option.map_some]

/-- Settles O35: every event takes a character, so the length of the text is fuel enough. -/
theorem traceTextRoundTrip : Obligations.TraceTextRoundTrip :=
  fun es hne h => readTraceFuel_writeTrace hne h (length_le_writeTrace es)

end Sys2Proof
end

section
/-! A loaded trace (R100): its arrivals all wait until FS is at rest, so POP goes first while it is enabled, and the next
event of the trace after it (R160; log 1). -/

namespace Sys2Proof.Machine

/-! ### FS run to quiescence -/

/-- A POP takes one byte of the backlog (R156). -/
theorem rxq_length_of_react_pop {s t : State} (h : react .pop s = .next t) : t.rxq.length + 1 = s.rxq.length := by
  obtain ⟨i, hd, hx⟩ := react_eq_next.1 h
  rw [decode_pop] at hd
  split at hd
  · cases hd
    cases effect_of_exec hx with
    | framing hf => nomatch hf
    | pop _ hq _ hf => rw [hf.rxq_eq, hq, List.length_cons]
  · cases hd

/-- As many POP steps as RXQ has bytes leave POP not enabled. -/
theorem quiet_of_quiesceFuel {n : Nat} {s t : State} (hn : s.rxq.length ≤ n) (h : quiesceFuel n s = .next t) :
    t.quiet = true := by
  induction n generalizing s with
  | zero =>
    cases h
    simp [State.quiet, State.popReady, List.eq_nil_of_length_eq_zero (Nat.le_zero.1 hn)]
  | succ n ih =>
    simp only [quiesceFuel] at h
    split at h
    · obtain ⟨u, hu, ht⟩ := andThen_eq_next.1 h
      have := rxq_length_of_react_pop hu
      exact ih (by omega) ht
    · rename_i hr
      cases h
      simpa [State.quiet] using hr

/-- What holds of the state a run to quiescence ends in, and of the state before a POP if of the one after it, holds of the
state the run began in. -/
theorem of_quiesceFuel {P : State → Prop} (hpop : ∀ s u, react .pop s = .next u → P u → P s) {n : Nat} {s t : State}
    (h : quiesceFuel n s = .next t) (ht : P t) : P s := by
  induction n generalizing s with
  | zero => cases h; exact ht
  | succ n ih =>
    simp only [quiesceFuel] at h
    split at h
    · obtain ⟨u, hu, hut⟩ := andThen_eq_next.1 h
      exact hpop s u hu (ih hut)
    · cases h; exact ht

theorem pending_of_quiesceFuel {n : Nat} {s t : State} (h : quiesceFuel n s = .next t) : t.pending = s.pending :=
  of_quiesceFuel (P := fun u => t.pending = u.pending) (fun _ _ hu ht => ht.trans (react_pending hu)) h rfl

/-! ### Steps with a trace loaded -/

/-- Where POP is enabled it has the turn, and the loaded trace waits as it is. -/
theorem turn_load_pop {s : State} (es : List InputEvent) (h : s.popReady = true) :
    (s.load es).turn = .pop (s.load es).pending := by
  have hr : (s.load es).popReady = true := h
  cases es with
  | nil => simp [State.turn, hr]
  | cons e es => exact turn_cons_pop rfl hr rfl

/-- At rest the first event of the loaded trace has the turn. -/
theorem turn_load_cons {s : State} (e : InputEvent) (es : List InputEvent) (h : s.quiet = true) :
    (s.load (e :: es)).turn = .take e (s.load es).pending := by
  have hr : s.popReady = false := by simpa [State.quiet] using h
  have hturn : (s.load (e :: es)).turn = takeArrival ⟨e, [], .atRest⟩ (s.load es).pending := turn_cons_take rfl (.inl hr)
  rw [hturn]
  by_cases he : e = .reset <;> simp [takeArrival, he]

theorem step_load_pop {s t : State} (es : List InputEvent) (h : react .pop s = .next t) :
    step (s.load es) = .next (t.load es) := by
  simp only [step, turn_load_pop es (popReady_of_react_pop h)]
  exact react_withPending h _

theorem step_load_cons {s t : State} {e : InputEvent} (es : List InputEvent) (hq : s.quiet = true)
    (h : react (.input e) s = .next t) : step (s.load (e :: es)) = .next (t.load es) := by
  simp only [step, turn_load_cons e es hq]
  exact react_withPending h _

/-! ### Runs -/

/-- A state is reached from wherever one step leads to a state that reaches it. -/
theorem reaches_of_step {s u t : State} (h : step s = .next u) (hr : ∃ n, Host.Core.run core n u = .next t) :
    ∃ n, Host.Core.run core n s = .next t := by
  obtain ⟨n, hn⟩ := hr
  exact ⟨n + 1, (run_succ_of_step n h).trans hn⟩

/-- FS's POP steps with a trace loaded are those it takes without one. -/
theorem reaches_of_quiesceFuel {n : Nat} {s u t : State} {es : List InputEvent} (h : quiesceFuel n s = .next u)
    (hr : ∃ m, Host.Core.run core m (u.load es) = .next t) : ∃ m, Host.Core.run core m (s.load es) = .next t :=
  of_quiesceFuel (P := fun v => ∃ m, Host.Core.run core m (v.load es) = .next t)
    (fun _ _ hv hu => reaches_of_step (step_load_pop es hv) hu) h hr

/-- Settles O54, by induction on the trace: one step takes its first event, the steps after it bring FS to rest, and the
rest of the trace is then loaded. -/
theorem stepsRunTheLoadedTrace : Obligations.StepsRunTheLoadedTrace := by
  intro s t es
  induction es generalizing s with
  | nil =>
    rintro hp - ⟨⟩
    exact ⟨0, congrArg Host.Outcome.next (by rw [State.load, List.map_nil, ← hp])⟩
  | cons e es ih =>
    intro hp hq h
    obtain ⟨v, hv, ht⟩ := andThen_eq_next.1 h
    obtain ⟨u, hu, hquiesce⟩ := andThen_eq_next.1 hv
    have hpending : v.pending = [] := ((pending_of_quiesceFuel hquiesce).trans (react_pending hu)).trans hp
    exact reaches_of_step (step_load_cons es hq hu)
      (reaches_of_quiesceFuel hquiesce (ih v hpending (quiet_of_quiesceFuel (Nat.le_refl _) hquiesce) ht))

end Sys2Proof.Machine
end

section
/-! What one event selects: exactly one row of the dispatch table (R95, R96), and the step that performs its operation
(R3, R19). -/

namespace Sys2Proof.Machine

/-! ### The rows that apply -/

/-- The rows an event may select are those of its kind; the phase, the byte and the further condition choose among them. -/
theorem filter_rowApplies (c : Ctx) (e : Event) :
    dispatchTable.filter (rowApplies c e) =
      (dispatchTable.filter (·.event == e.kind)).filter fun r =>
        phaseHolds c r.phase && e.operand &&& r.mask == r.pattern && condHolds c e.operand r.cond := by
  rw [List.filter_filter]
  congr 1
  funext r
  simp [rowApplies, Bool.and_assoc, Bool.and_comm, Bool.and_left_comm]

/-- An event whose kind has one row selects it where the row's conditions hold. -/
theorem one_row_of_kind {c : Ctx} {e : Event} {r : DispatchRow} (hk : dispatchTable.filter (·.event == e.kind) = [r])
    (hp : phaseHolds c r.phase = true) (hm : e.operand &&& r.mask = r.pattern)
    (hc : condHolds c e.operand r.cond = true) : (dispatchTable.filter (rowApplies c e)).length = 1 := by
  rw [filter_rowApplies, hk]
  simp [hp, hm, hc]

/-- The seven rows of a byte exclude each other by the phase, in HUNT by the byte and in CHECKSUM by the fold. -/
theorem one_row_of_byte {c : Ctx} (b : Byte) (h : c.phase = some .hunt ∨ c.phase = some .header ∨
    c.phase = some .length ∨ c.phase = some .payload ∨ (c.phase = some .checksum ∧ ∃ a, c.acc = some a)) :
    (dispatchTable.filter (rowApplies c (.byte b))).length = 1 := by
  rw [filter_rowApplies]
  rcases h with h | h | h | h | ⟨h, a, ha⟩
  · have hmask : b &&& 0xFF#8 = b := BitVec.and_allOnes
    by_cases hb : b = Config.sentinel
    · simp [dispatchTable, Event.kind, Event.operand, phaseHolds, condHolds, h, hb, Config.sentinel]
    · have hb' : b ≠ 0xAA#8 := hb
      simp [dispatchTable, Event.kind, Event.operand, phaseHolds, condHolds, h, hmask, hb', Config.sentinel]
  · simp [dispatchTable, Event.kind, phaseHolds, condHolds, h]
  · simp [dispatchTable, Event.kind, phaseHolds, condHolds, h]
  · simp [dispatchTable, Event.kind, phaseHolds, condHolds, h]
  · by_cases hab : a = b <;> simp [dispatchTable, Event.kind, Event.operand, phaseHolds, condHolds, h, ha, hab]

/-- Outside the fatal state the invariants leave one of the five phases of a byte (R24, R32). -/
theorem State.Framed.byte_phase {s : State} (h : s.Framed) (hf : s.fault = .none) :
    s.phase = some .hunt ∨ s.phase = some .header ∨ s.phase = some .length ∨ s.phase = some .payload ∨
      s.phase = some .checksum := by
  have hlen : 5 ≤ s.cnt.toNat → s.cnt.toNat ≤ 5 + s.len.toNat := fun h5 => by
    simpa [BitVec.le_def] using (h.length (BitVec.le_def.2 h5)).2
  have hzero : s.cnt = 0 ↔ s.cnt.toNat = 0 := by rw [← BitVec.toNat_inj]; rfl
  rw [phase_hunt_iff, phase_header_iff, phase_length_iff, phase_payload_iff, phase_checksum_iff, hzero]
  simp only [hf, true_and]
  omega

theorem phaseHolds_live {s : State} (hf : s.fault = .none) : phaseHolds s.ctx .live = true := by
  simpa [phaseHolds, State.ctx, phase_fault_iff] using hf

/-- An event of the port selects its one row; the RX events are offered while RDREQ = 1 only (R151). -/
theorem one_row_of_input {s : State} {e : InputEvent} (h : admitted s e = true) :
    (dispatchTable.filter (rowApplies s.ctx (.input e))).length = 1 := by
  have hrx : isRxEvent e = true → phaseHolds s.ctx .live = true ∧ s.rdreq = true := fun he => by
    have hr : s.rdreq = true := by simp_all [admitted]
    exact ⟨phaseHolds_live ((rdreq_iff s).1 hr).2.1, hr⟩
  cases e with
  | rxchunk _ | rxnodata | rxfail _ => exact one_row_of_kind rfl (hrx rfl).1 BitVec.and_zero (hrx rfl).2
  | reset | next | gstart | gend => exact one_row_of_kind rfl rfl rfl rfl
  | gbyte b => exact one_row_of_kind rfl rfl BitVec.and_zero rfl

/-- Settles O33: the port events by their kind, the bytes by the phase the invariants leave. -/
theorem dispatchIsUnambiguous : Obligations.DispatchIsUnambiguous := by
  intro s hs
  refine ⟨fun e => one_row_of_input, fun hr => ?_⟩
  have hf : s.fault = .none := ((popReady_iff s).1 hr).2.1
  refine ⟨one_row_of_kind rfl (phaseHolds_live hf) rfl hr, fun b => one_row_of_byte b ?_⟩
  rcases hs.byte_phase hf with h | h | h | h | h
  · exact .inl h
  · exact .inr (.inl h)
  · exact .inr (.inr (.inl h))
  · exact .inr (.inr (.inr (.inl h)))
  · have hpos := (count_of_gathering (.inr (.inr (.inr h)))).1
    exact .inr (.inr (.inr (.inr ⟨h, s.acc, accValue_of_pos hpos⟩)))

/-! ### The step of the event whose turn it is -/

theorem react_of_decode {s : State} {e : Event} {i : Instr} (h : decode s.ctx e = .ok i) : react e s = exec i s := by
  simp only [react, h]

/-- What the decoder answers is the operation some mnemonic names with the operand of the event. -/
theorem instrOf_of_decode {c : Ctx} {e : Event} {i : Instr} (h : decode c e = .ok i) : ∃ op, instrOf op e = some i := by
  simp only [decode] at h
  split at h
  · rename_i j hj
    cases h
    obtain ⟨r, -, hr⟩ := Option.bind_eq_some_iff.1 hj
    exact ⟨r.op, hr⟩
  · cases h

/-- A byte selects framing operations only, and POP performs those as they are (R130). -/
theorem perform_eq_exec {c : Ctx} {b : Byte} {i : Instr} (h : decode c (.byte b) = .ok i) (s : State) :
    perform i s = exec i s := by
  obtain ⟨op, hop⟩ := instrOf_of_decode h
  cases op <;> cases hop <;> rfl

/-- An enabled POP is the operation its byte selects, on the state without the byte (R156). -/
theorem execPop_eq_exec {s : State} {b : Byte} {q : List Byte} {i : Instr} (hr : s.popReady = true) (hq : s.rxq = b :: q)
    (hd : decode s.ctx (.byte b) = .ok i) : execPop s = exec i { s with rxq := q } := by
  simp only [execPop, hr, if_true, popRx_cons hq, hd]
  exact perform_eq_exec hd _

/-- When POP has the turn, the step is POP: the table selects it wherever it is enabled. -/
theorem step_of_turn_pop {s : State} {rest : List Arrival} (h : s.turn = .pop rest) :
    step s = exec .pop { s with pending := rest } := by
  have hr : s.popReady = true := popReady_of_turn h
  have hph : s.phase ≠ some .fault := fun hp => (phase_fault_iff s).1 hp ((popReady_iff s).1 hr).2.1
  simp only [step, h]
  exact react_of_decode ((decode_pop _).trans (if_pos ⟨hph, hr⟩))

/-- Settles O44, turn by turn. -/
theorem stepRunsTheDecodedOperation : Obligations.StepRunsTheDecodedOperation := by
  intro s
  refine ⟨fun e rest i ht hd => ?_, fun rest => step_of_turn_pop, fun rest b q i ht hq hd => ?_, fun ht => ?_⟩
  · simp only [step, ht, react_of_decode hd]
  · have hr : s.popReady = true := popReady_of_turn ht
    exact (step_of_turn_pop ht).trans (execPop_eq_exec (s := { s with pending := rest }) hr hq hd)
  · simp only [step, ht]

end Sys2Proof.Machine
end

section
/-! The fields of a frame and its bytes determine each other (R80 to R84). -/

namespace Sys2Proof.Machine

/-- The fold over all bytes is zero exactly where the last byte is the checksum of those before it (R83, R112). -/
theorem verify_append_iff (body : List Byte) (k : Byte) : verify (body ++ [k]) = true ↔ k = compute body := by
  simp only [verify, compute, fold_append_byte, beq_iff_eq, BitVec.ofNat_eq_ofNat, BitVec.xor_eq_zero_iff]
  exact eq_comm

/-- The layout of R80. -/
theorem WireFrame.bytes_eq (w : WireFrame) :
    w.bytes = Config.sentinel :: w.cls :: w.address :: w.fixed :: BitVec.ofNat 8 w.payload.length ::
      (w.payload ++ [compute w.body]) := rfl

/-- What block-valid says of the fields of a list (R80, R84). -/
theorem blockValid_fields_iff (b c a x l k : Byte) (p : List Byte) :
    blockValid (b :: c :: a :: x :: l :: (p ++ [k])) = true ↔
      b = Config.sentinel ∧ l.toNat = p.length ∧ k = compute (b :: c :: a :: x :: l :: p) := by
  have hv := verify_append_iff (b :: c :: a :: x :: l :: p) k
  simp only [List.cons_append] at hv
  simp [blockValid, hv, Config.overhead, Config.hdrLen, Config.lenBytes, Config.ckBytes, and_assoc]

/-- A list of at least 6 bytes has a field at each of the offsets of R80. -/
theorem exists_fields {f : List Byte} (h : 6 ≤ f.length) :
    ∃ b c a x l p k, f = b :: c :: a :: x :: l :: (p ++ [k]) := by
  match f with
  | b :: c :: a :: x :: l :: y :: rest =>
    exact ⟨b, c, a, x, l, _, _, by rw [List.dropLast_concat_getLast (List.cons_ne_nil y rest)]⟩

theorem readFrame_fields {b c a x l k : Byte} {p : List Byte} (h : blockValid (b :: c :: a :: x :: l :: (p ++ [k])) = true) :
    readFrame (b :: c :: a :: x :: l :: (p ++ [k])) = some ⟨c, a, x, p⟩ := by
  simp only [readFrame, h, if_true, List.dropLast_concat]

theorem WireFrame.fits_iff (w : WireFrame) : w.fits = true ↔ w.payload.length ≤ 255 := decide_eq_true_iff

theorem lengthByte_toNat {w : WireFrame} (h : w.fits = true) :
    (BitVec.ofNat 8 w.payload.length).toNat = w.payload.length := by
  have hlen : w.payload.length ≤ 255 := w.fits_iff.1 h
  rw [BitVec.toNat_ofNat]
  omega

theorem blockValid_bytes {w : WireFrame} (h : w.fits = true) : blockValid w.bytes = true := by
  rw [w.bytes_eq, blockValid_fields_iff]
  exact ⟨rfl, lengthByte_toNat h, rfl⟩

/-- Settles O36: the fields of R80 cut the bytes, and block-valid says that the other three are the ones they fix. -/
theorem wireFrameRoundTrip : Obligations.WireFrameRoundTrip := by
  refine ⟨fun w hw => ⟨blockValid_bytes hw, readFrame_fields (blockValid_bytes hw)⟩, fun f hf => ?_⟩
  have hlen : 6 ≤ f.length := by simp_all [blockValid]
  obtain ⟨b, c, a, x, l, p, k, rfl⟩ := exists_fields hlen
  obtain ⟨rfl, hl, rfl⟩ := (blockValid_fields_iff b c a x l k p).1 hf
  have hbyte : BitVec.ofNat 8 p.length = l := by rw [← hl, BitVec.ofNat_toNat, BitVec.setWidth_eq]
  refine ⟨⟨c, a, x, p⟩, readFrame_fields hf, ?_, ?_⟩
  · have : l.toNat < 256 := l.isLt
    exact (WireFrame.fits_iff _).2 (show p.length ≤ 255 by omega)
  · simp only [WireFrame.bytes_eq, WireFrame.body, hbyte]
    rfl

end Sys2Proof.Machine
end

section
/-! The expansions of `RX(bs)` (R101). -/

namespace Sys2Proof.Machine

/-- An event an expansion of RX may hold: a chunk of 1 to RX_CHUNK_MAX bytes, or RXNODATA (R90, R101). -/
def IsRxPart (e : InputEvent) : Prop :=
  e = .rxnodata ∨ ∃ c : List Byte, e = .rxchunk c ∧ 1 ≤ c.length ∧ c.length ≤ Config.rxChunkMax

theorem isRxPart_rxchunk (c : List Byte) : IsRxPart (.rxchunk c) ↔ chunkAdmitted c = true := by
  simp [IsRxPart, chunkAdmitted]

/-! Which event is the last: RXNODATA needs one behind it, and a chunk does not. -/

theorem getLast?_cons_rxnodata (es : List InputEvent) :
    (InputEvent.rxnodata :: es).getLast? ≠ some .rxnodata ↔ es ≠ [] ∧ es.getLast? ≠ some .rxnodata := by
  cases es <;> simp [List.getLast?_cons]

theorem getLast?_cons_rxchunk (c : List Byte) (es : List InputEvent) :
    (InputEvent.rxchunk c :: es).getLast? ≠ some .rxnodata ↔ es.getLast? ≠ some .rxnodata := by
  cases es <;> simp [List.getLast?_cons]

/-- What `rxBytes` reads: parts of an expansion, of which the last delivers bytes. -/
theorem rxBytes_eq_some_iff (es : List InputEvent) (bs : List Byte) :
    rxBytes es = some bs ↔
      delivered (es.map .input) = bs ∧ (∀ e ∈ es, IsRxPart e) ∧ es.getLast? ≠ some .rxnodata := by
  induction es generalizing bs with
  | nil => simp [rxBytes, delivered]
  | cons e es ih =>
    cases e with
    | rxchunk c =>
      rw [getLast?_cons_rxchunk, List.forall_mem_cons, isRxPart_rxchunk]
      by_cases hc : chunkAdmitted c = true
      · simp only [rxBytes, hc, if_true, Option.map_eq_some_iff, ih, List.map_cons, delivered, true_and]
        constructor
        · rintro ⟨q, ⟨rfl, hparts⟩, rfl⟩
          exact ⟨rfl, hparts⟩
        · rintro ⟨rfl, hparts⟩
          exact ⟨_, ⟨rfl, hparts⟩, rfl⟩
      · simp [rxBytes, hc]
    | rxnodata =>
      rw [getLast?_cons_rxnodata, List.forall_mem_cons]
      by_cases hes : es = []
      · simp [rxBytes, hes]
      · simp [rxBytes, hes, ih, delivered, IsRxPart]
    | _ => simp [rxBytes, IsRxPart]

theorem isRx_iff (bs : List Byte) (es : List InputEvent) :
    isRx bs es = true ↔ es.head? ≠ some .rxnodata ∧ rxBytes es = some bs := by
  simp [isRx]

/-- One byte a read is an expansion, since RX_CHUNK_MAX is at least 1 (R9). -/
theorem isRx_single_bytes (bs : List Byte) : isRx bs (bs.map fun b => .rxchunk [b]) = true := by
  have hread : rxBytes (bs.map fun b => .rxchunk [b]) = some bs := by
    induction bs with
    | nil => rfl
    | cons b bs ih =>
      have hb : chunkAdmitted [b] = true := by simp [chunkAdmitted, Config.rxChunkMax]
      simp [rxBytes, hb, ih]
  rw [isRx_iff]
  exact ⟨by cases bs <;> simp, hread⟩

/-- Settles O55: `rxBytes` reads the parts of an expansion, and one byte a read is one. -/
theorem rxExpansionsDeliverTheirBytes : Obligations.RxExpansionsDeliverTheirBytes := by
  intro bs
  refine ⟨fun es => ?_, _, isRx_single_bytes bs⟩
  rw [isRx_iff, rxBytes_eq_some_iff]
  constructor
  · rintro ⟨hhead, hbytes, hparts, hlast⟩
    exact ⟨hbytes, hparts, hhead, hlast⟩
  · rintro ⟨hbytes, hparts, hhead, hlast⟩
    exact ⟨hhead, hbytes, hparts, hlast⟩

end Sys2Proof.Machine
end

section
/-! The laws of the checksum functions (R113 to R117): `fold` is the library's left fold of an associative and commutative
operation, and each bit position of it counts parity. -/

namespace Sys2Proof.Machine

/-! ### The fold (R110) -/

@[simp] theorem fold_nil (a : Byte) : fold a [] = a := rfl
@[simp] theorem fold_cons (a b : Byte) (s : List Byte) : fold a (b :: s) = fold (a ^^^ b) s := rfl

theorem fold_eq_foldl (a : Byte) (s : List Byte) : fold a s = s.foldl (· ^^^ ·) a := by
  induction s generalizing a with
  | nil => rfl
  | cons b s ih => exact ih (a ^^^ b)

theorem fold_append (a : Byte) (s t : List Byte) : fold a (s ++ t) = fold (fold a s) t := by
  simp only [fold_eq_foldl, List.foldl_append]

theorem fold_eq_xor_fold_zero (a : Byte) (s : List Byte) : fold a s = a ^^^ fold 0x00 s := by
  simp only [fold_eq_foldl, ← List.foldl_assoc, BitVec.ofNat_eq_ofNat, BitVec.xor_zero]

theorem fold_perm (a : Byte) {s s' : List Byte} (h : s.Perm s') : fold a s = fold a s' := by
  rw [fold_eq_foldl, fold_eq_foldl, h.foldl_eq]

/-- Settles O28: the laws of a left fold of exclusive-or, and the fold over one byte more. -/
theorem foldLaws : Obligations.FoldLaws :=
  ⟨fold_append, fold_eq_xor_fold_zero, fun a _ _ => fold_perm a, fun s c => fold_append_byte Config.seed c s⟩

/-- Settles O29. -/
theorem sealThenVerify : Obligations.SealThenVerify := verify_append_iff

/-- Settles O30: the values by evaluation; a one-byte list verifies where its byte is the checksum of the empty list. -/
theorem checksumFixedPoints : Obligations.ChecksumFixedPoints :=
  ⟨rfl, rfl, rfl, rfl, rfl, rfl, rfl, verify_append_iff [], rfl⟩

/-! ### What the checksum detects (R117) -/

theorem verify_iff (s : List Byte) : verify s = true ↔ fold Config.seed s = 0#8 := beq_iff_eq

/-- Folds from different bytes stay different. -/
theorem fold_left_inj {a b : Byte} (s : List Byte) : fold a s = fold b s ↔ a = b := by
  rw [fold_eq_xor_fold_zero a, fold_eq_xor_fold_zero b, BitVec.xor_left_inj]

/-- The folds of two lists of one length differ by the fold of their differences. -/
theorem fold_zipWith_xor (a b : Byte) {f g : List Byte} (h : g.length = f.length) :
    fold (a ^^^ b) (List.zipWith (· ^^^ ·) f g) = fold a f ^^^ fold b g := by
  induction f generalizing a b g with
  | nil => simp [List.eq_nil_of_length_eq_zero h]
  | cons x f ih =>
    match g with
    | y :: g =>
      have hxy : a ^^^ b ^^^ (x ^^^ y) = (a ^^^ x) ^^^ (b ^^^ y) := by ac_rfl
      rw [List.zipWith_cons_cons, fold_cons, hxy]
      exact ih (a ^^^ x) (b ^^^ y) (Nat.succ.inj h)

/-- Each bit of the fold is flipped once for every byte that has it. -/
theorem getLsbD_fold (a : Byte) (s : List Byte) (i : Nat) :
    (fold a s).getLsbD i = (a.getLsbD i ^^ decide ((s.countP fun d => d.getLsbD i) % 2 = 1)) := by
  induction s generalizing a with
  | nil => simp
  | cons b s ih =>
    rw [fold_cons, ih, List.countP_cons, BitVec.getLsbD_xor, Bool.xor_assoc]
    congr 1
    cases b.getLsbD i with
    | false => simp
    | true => simp [Nat.succ_mod_two_eq_one_iff, ← decide_not]

/-- The fold from zero is zero where every bit position has an even number of ones. -/
theorem fold_zero_eq_zero_iff (s : List Byte) :
    fold 0#8 s = 0#8 ↔ ∀ i < 8, (s.countP fun d => d.getLsbD i) % 2 = 0 := by
  rw [BitVec.eq_of_getLsbD_eq_iff]
  simp only [getLsbD_fold, BitVec.getLsbD_zero, Bool.false_xor, decide_eq_false_iff_not,
    Nat.mod_two_not_eq_one]

/-- Settles O31: the changed list verifies where the differences fold to zero, bit by bit; and one changed byte changes the
fold. -/
theorem checksumDetectsOddChanges : Obligations.ChecksumDetectsOddChanges := by
  intro f g hf hlen
  rw [verify_iff] at hf
  refine ⟨?_, ?_⟩
  · have hzip := fold_zipWith_xor Config.seed Config.seed hlen
    rw [BitVec.xor_self, hf, BitVec.zero_xor] at hzip
    rw [verify_iff, ← hzip]
    exact fold_zero_eq_zero_iff _
  · rintro p q x y rfl rfl hxy
    rw [← Bool.not_eq_true, verify_iff, ← hf, fold_append, fold_append, fold_cons, fold_cons, fold_left_inj,
      BitVec.xor_right_inj]
    exact hxy.symm

end Sys2Proof.Machine
end

section
/-! The generator and SEAL (R118 to R121). -/

namespace Sys2Proof.Machine

/-- Settles O23. -/
theorem gstartResult : Obligations.GstartResult := fun _ => rfl

/-- Settles O24. -/
theorem gbyteResult : Obligations.GbyteResult := fun _ _ => rfl

/-- Settles O25. -/
theorem gendResult : Obligations.GendResult := fun _ => rfl

/-- The block's reaction to an input event comes first (R17). -/
theorem reactAll_cons {e : InputEvent} {s : State} {i : Instr} (h : decode s.ctx (.input e) = .ok i)
    (es : List InputEvent) : reactAll (e :: es) s = andThen (exec i s) (reactAll es) := by
  rw [reactAll, react_of_decode h]

/-- From any GACC, a body and GEND emit the body and its fold from there. -/
theorem reactAll_gbytes_gend (body : List Byte) (s : State) :
    reactAll (body.map .gbyte ++ [.gend]) s =
      .next { s with gacc := 0x55, out := s.out ++ (body ++ [fold s.gacc body]).map .tx } := by
  induction body generalizing s with
  | nil =>
    rw [List.map_nil, List.nil_append, reactAll_cons (decode_gend _), gendResult s]
    rfl
  | cons b body ih =>
    rw [List.map_cons, List.cons_append, reactAll_cons (decode_gbyte _ b), gbyteResult s b, andThen_next, ih]
    simp

/-- A body whose fifth byte is the number of payload bytes makes a frame with the fields it names (R84, R121). -/
theorem readFrame_sealed {c a x n : Byte} {p : List Byte} (h : p.length = n.toNat) :
    blockValid (sealBytes (Config.sentinel :: c :: a :: x :: n :: p)) = true ∧
      readFrame (sealBytes (Config.sentinel :: c :: a :: x :: n :: p)) = some ⟨c, a, x, p⟩ := by
  have hvalid := (blockValid_fields_iff Config.sentinel c a x n _ p).2 ⟨rfl, h.symm, rfl⟩
  exact ⟨hvalid, readFrame_fields hvalid⟩

/-- Settles O26, by induction on the body after GSTART. -/
theorem sealEmitsBodyAndChecksum : Obligations.SealEmitsBodyAndChecksum := by
  intro s body
  refine ⟨?_, (verify_append_iff body _).2 rfl, ?_⟩
  · rw [sealEvents, List.cons_append, reactAll_cons (decode_gstart _), gstartResult s, andThen_next, reactAll_gbytes_gend]
    rfl
  · rintro c a n p rfl hlen
    exact readFrame_sealed hlen

end Sys2Proof.Machine
end

section
/-! The validator inside FS (R122): in a state that meets the invariants ACC is the fold of the candidate, so the zero test at
the checksum byte verifies the whole buffer. -/

namespace Sys2Proof.Machine

/-- CNT counts the bytes of the candidate (R16, R22). -/
theorem length_of_candidate {s : State} {f : List Byte} (h : s.candidate = some f) : f.length = s.cnt.toNat :=
  Buf.block_length h

/-- Item 3 of R32, of a candidate at hand. -/
theorem State.Framed.acc_eq_compute {s : State} {f : List Byte} (h : s.Framed) (hcand : s.candidate = some f)
    (hf : f ≠ []) : s.acc = compute f := by
  have hcnt : s.cnt ≠ 0 := by
    intro h0
    exact hf (List.eq_nil_of_length_eq_zero (by rw [length_of_candidate hcand, h0]; rfl))
  simpa [hcand, eq_comm] using h.accumulator hcnt

/-- The zero test is the fold over one byte more (R112, R114). -/
theorem foldsToZero_compute (f : List Byte) (b : Byte) : foldsToZero (compute f) b = verify (f ++ [b]) := by
  rw [verify, compute, compute, fold_append_byte]
  rfl

/-- Settles O32: the checksum byte stands at 5 + LEN, so the candidate has that many bytes and ACC is their fold. -/
theorem validatorVerifiesTheWholeBuffer : Obligations.ValidatorVerifiesTheWholeBuffer := by
  intro s f b hs hph hcand
  have hlen : f.length = 5 + s.len.toNat := (length_of_candidate hcand).trans ((phase_checksum_iff s).1 hph).2
  have hacc : s.acc = compute f := hs.acc_eq_compute hcand (by rintro rfl; simp at hlen; omega)
  refine ⟨hlen, hacc, ?_, ?_⟩
  · rw [hacc, foldsToZero_compute]
  · rw [hacc, foldsToZero_compute, verify_append_iff]

end Sys2Proof.Machine
end

section
/-! A candidate from the hunt to its checksum byte (R132 to R137). `Gathered s w q t` relates the hunting state `s` to the
state `t` in which the bytes `w` have been gathered and `q` is left of the backlog. One POP gathers one byte more, and the POP
of a matching checksum byte emits the frame. -/

namespace Sys2Proof.Machine

/-! ### POP, byte by byte -/

/-- An enabled POP is the operation that the oldest byte selects, on the state without it (R156). -/
theorem react_pop_eq_exec {s : State} {b : Byte} {q : List Byte} {i : Instr} (hr : s.popReady = true) (hq : s.rxq = b :: q)
    (hd : decode s.ctx (.byte b) = .ok i) : react .pop s = exec i { s with rxq := q } := by
  have hph : s.phase ≠ some .fault := fun hp => (phase_fault_iff s).1 hp ((popReady_iff s).1 hr).2.1
  rw [react_of_decode ((decode_pop s.ctx).trans (if_pos ⟨hph, hr⟩))]
  exact execPop_eq_exec hr hq hd

/-- What a framing operation finds where it completes is enough for it to complete (R131 to R138). -/
theorem FramingEffect.exec_eq {s t : State} {i : Instr} (h : FramingEffect s i t) : exec i s = .next t := by
  have hstore (b : Byte) {p : Phase} (hp : s.framingIn p = true) (hg : p = .header ∨ p = .length ∨ p = .payload ∨
      p = .checksum) : storeFold b s = .next (s.storeByte b) := by
    obtain ⟨h1, h2⟩ := count_of_gathering (s := s) (by simpa [((framingIn_iff s p).1 hp).2] using hg)
    exact storeFold_next b h1 h2
  cases h with
  | sync hp => simp only [exec, execSync, hp, if_true]
  | skip b hp hb => simp [exec, execSkip, hp, hb]
  | hdr b hp => simp [exec, execHdr, hp, hstore b hp]
  | len b hp => simp [exec, execLen, hp, hstore b hp]
  | pay b hp => simp [exec, execPay, hp, hstore b hp]
  | accept b f hp hz hf => simp [exec, execAccept, hp, hz, hstore b hp, hf]
  | drop b hp hz => simp [exec, execDrop, hp, hz, hstore b hp]

/-- The framing operation by which the byte at index `i` of a candidate is gathered (R130, R140). -/
def gatheringOp (i : Nat) : OpName :=
  if i = 0 then .sync else if i ≤ 3 then .hdr else if i = 4 then .len else .pay

/-- The bytes that can stand in BUF without the checksum byte: the sentinel first, and no more than the length byte, once
it is there, allows (R80, R82). -/
structure Gatherable (w : List Byte) : Prop where
  first : ∀ b ∈ w[0]?, b = Config.sentinel
  fits : ∀ l ∈ w[4]?, w.length ≤ 5 + l.toNat

theorem Gatherable.of_append {w v : List Byte} (h : Gatherable (w ++ v)) : Gatherable w := by
  have hmem {i : Nat} {x : Byte} (hx : x ∈ w[i]?) : x ∈ (w ++ v)[i]? := by
    obtain ⟨hi, -⟩ := List.getElem?_eq_some_iff.1 hx
    rwa [List.getElem?_append_left hi]
  refine ⟨fun b hb => h.first b (hmem hb), fun l hl => ?_⟩
  have hfits := h.fits l (hmem hl)
  rw [List.length_append] at hfits
  omega

/-- FS in `t` has gathered `w` since it hunted in `s`, and `q` is left of the backlog. -/
structure Gathered (s : State) (w q : List Byte) (t : State) : Prop where
  framed : t.Framed
  demand : t.demand = true
  live : t.fault = .none
  candidate : t.candidate = some w
  rxq : t.rxq = q
  out : t.out = s.out
  ops : t.ops = s.ops ++ (List.range w.length).map gatheringOp

theorem gathered_nil {s : State} (h : s.Framed) (hd : s.demand = true) (hf : s.fault = .none) (hc : s.cnt = 0) :
    Gathered s [] s.rxq s where
  framed := h
  demand := hd
  live := hf
  candidate := by rw [State.candidate, hc]; rfl
  rxq := rfl
  out := rfl
  ops := (List.append_nil _).symm

section
variable {s t : State} {w q : List Byte} {b : Byte}

theorem Gathered.cnt (h : Gathered s w q t) : t.cnt.toNat = w.length := (length_of_candidate h.candidate).symm

theorem Gathered.popReady (h : Gathered s w (b :: q) t) : t.popReady = true :=
  (popReady_iff t).2 ⟨h.demand, h.live, by rw [h.rxq]; nofun⟩

/-- The register LEN holds the fifth byte gathered (item 2 of R32). -/
theorem Gathered.len (h : Gathered s w q t) (h5 : 5 ≤ w.length) : w[4]? = some t.len := by
  have hcnt : 5 ≤ t.cnt.toNat := h.cnt ▸ h5
  rw [Buf.block_getElem h.candidate (by omega)]
  exact (h.framed.length (BitVec.le_def.2 hcnt)).1

/-- With as many bytes gathered as LEN allows, the next byte is the checksum byte (R24). -/
theorem Gathered.phase_checksum {l : Byte} (h : Gathered s w q t) (hl : w[4]? = some l) (hw : w.length = 5 + l.toNat) :
    t.phase = some .checksum := by
  obtain rfl : l = t.len := Option.some.inj (hl.symm.trans (h.len (by omega)))
  exact (phase_checksum_iff t).2 ⟨h.live, h.cnt.trans hw⟩

/-- The operation the next byte selects gathers it, where its effect says so of the items the invariants do not fix. -/
theorem Gathered.of_effect {i : Instr} {u : State} (h : Gathered s w (b :: q) t) (hd : decode t.ctx (.byte b) = .ok i)
    (hx : FramingEffect { t with rxq := q } i u) (hdemand : u.demand = t.demand) (hcand : u.candidate = some (w ++ [b]))
    (hout : u.out = t.out) (hops : u.ops = t.ops ++ [gatheringOp w.length]) :
    ∃ u, react .pop t = .next u ∧ Gathered s (w ++ [b]) q u :=
  ⟨u, (react_pop_eq_exec h.popReady h.rxq hd).trans hx.exec_eq,
    { framed := hx.framed (h.framed.withRxq h.live q)
      demand := hdemand.trans h.demand
      live := hx.fault_eq.trans h.live
      candidate := hcand
      rxq := hx.rxq_eq
      out := hout.trans h.out
      ops := by rw [hops, h.ops]; simp [List.range_succ] }⟩

/-- One POP gathers one byte more, in each phase before CHECKSUM. -/
theorem Gathered.pop (h : Gathered s w (b :: q) t) (hg : Gatherable (w ++ [b])) :
    ∃ u, react .pop t = .next u ∧ Gathered s (w ++ [b]) q u := by
  have hcnt := h.cnt
  have hin {p : Phase} (hp : t.phase = some p) : ({ t with rxq := q } : State).framingIn p = true :=
    (framingIn_iff _ p).2 ⟨h.demand, hp⟩
  have hcand : (({ t with rxq := q } : State).storeByte b).candidate = some (w ++ [b]) :=
    candidate_storeByte b h.framed.count h.candidate
  rcases h.framed.byte_phase h.live with hp | hp | hp | hp | hp
  · have h0 : t.cnt = 0 := ((phase_hunt_iff t).1 hp).2
    obtain rfl : w = [] := List.eq_nil_of_length_eq_zero (by rw [← hcnt, h0]; rfl)
    obtain rfl : b = Config.sentinel := hg.first b rfl
    exact h.of_effect ((decode_byte_hunt _ hp).trans (if_pos rfl)) (.sync (hin hp)) rfl
      (Buf.block_write Config.sentinel rfl) rfl rfl
  · obtain ⟨-, h1, h3⟩ := (phase_header_iff t).1 hp
    have hop : gatheringOp w.length = .hdr := by rw [gatheringOp, if_neg (by omega), if_pos (by omega)]
    exact h.of_effect (decode_byte_header b hp) (.hdr b (hin hp)) rfl hcand rfl (by rw [hop]; rfl)
  · obtain ⟨-, h4⟩ := (phase_length_iff t).1 hp
    have hop : gatheringOp w.length = .len := by rw [← hcnt, h4]; rfl
    exact h.of_effect (decode_byte_length b hp) (.len b (hin hp)) rfl hcand rfl (by rw [hop]; rfl)
  · obtain ⟨-, h5, -⟩ := (phase_payload_iff t).1 hp
    have hop : gatheringOp w.length = .pay := by
      rw [gatheringOp, if_neg (by omega), if_neg (by omega), if_neg (by omega)]
    exact h.of_effect (decode_byte_payload b hp) (.pay b (hin hp)) rfl hcand rfl (by rw [hop]; rfl)
  · obtain ⟨-, hc⟩ := (phase_checksum_iff t).1 hp
    have h5 : 5 ≤ w.length := by omega
    have hfits := hg.fits t.len (by rw [List.getElem?_append_left h5, h.len h5]; rfl)
    rw [List.length_append, List.length_singleton] at hfits
    omega

/-- The POP of the checksum byte, where the whole candidate verifies (R137). -/
theorem Gathered.pop_accept {l : Byte} (h : Gathered s w (b :: q) t) (hl : w[4]? = some l)
    (hw : w.length = 5 + l.toNat) (hv : verify (w ++ [b]) = true) :
    react .pop t = .next
      ((((({ t with rxq := q } : State).storeByte b).emit (.frame (w ++ [b]))).endCandidate.clearDemand).note .accept) := by
  have hp := h.phase_checksum hl hw
  have hacc : t.acc = compute w := h.framed.acc_eq_compute h.candidate (by rintro rfl; cases hl)
  have hz : foldsToZero t.acc b = true := by rw [hacc, foldsToZero_compute, hv]
  have hd : decode t.ctx (.byte b) = .ok (.accept b) :=
    (decode_byte_checksum b hp (accValue_of_pos (by rw [h.cnt]; omega))).trans (if_pos (beq_iff_eq.1 hz))
  rw [react_pop_eq_exec h.popReady h.rxq hd]
  exact (FramingEffect.accept (s := { t with rxq := q }) b (w ++ [b]) ((framingIn_iff _ _).2 ⟨h.demand, hp⟩) hz
    (candidate_storeByte b h.framed.count h.candidate)).exec_eq

/-! ### Runs of POP -/

theorem quiesceFuel_succ {u : State} (h : react .pop s = .next u) (n : Nat) : quiesceFuel (n + 1) s = quiesceFuel n u := by
  rw [quiesceFuel, if_pos (popReady_of_react_pop h), h, andThen_next]

theorem quiesceFuel_of_quiet (h : s.quiet = true) (n : Nat) : quiesceFuel n s = .next s := by
  have hr : s.popReady = false := by simpa [State.quiet] using h
  cases n with
  | zero => rfl
  | succ n => simp [quiesceFuel, hr]

/-- As many POP steps as there are bytes before the checksum byte gather them all, and leave the other steps to come. -/
theorem Gathered.quiesceFuel_add {v : List Byte} (h : Gathered s w (v ++ q) t) (hg : Gatherable (w ++ v)) :
    ∃ u, Gathered s (w ++ v) q u ∧ ∀ n, quiesceFuel (v.length + n) t = quiesceFuel n u := by
  induction v generalizing w t with
  | nil => exact ⟨t, by rwa [List.append_nil], fun n => by rw [List.length_nil, Nat.zero_add]⟩
  | cons b v ih =>
    rw [List.append_cons] at hg ⊢
    obtain ⟨u, hu, hgu⟩ := h.pop hg.of_append
    obtain ⟨x, hx, hrun⟩ := ih hgu hg
    refine ⟨x, hx, fun n => ?_⟩
    rw [List.length_cons, Nat.add_right_comm, quiesceFuel_succ hu, hrun]

/-- A whole candidate that verifies, at the head of the backlog: with the checksum byte the frame is emitted, and without a
demand the bytes behind it stay. -/
theorem quiesce_candidate {l : Byte} (hs : s.Framed) (hd : s.demand = true) (hf : s.fault = .none) (hc : s.cnt = 0)
    (hq : s.rxq = w ++ b :: q) (hg : Gatherable w) (hl : w[4]? = some l) (hw : w.length = 5 + l.toNat)
    (hv : verify (w ++ [b]) = true) :
    ∃ t, quiesce s = .next t ∧ t.out = s.out ++ [.frame (w ++ [b])] ∧ t.rxq = q ∧ t.cnt = 0 ∧ t.demand = false ∧
      t.fault = .none := by
  obtain ⟨t, ht, hrun⟩ := (hq ▸ gathered_nil hs hd hf hc).quiesceFuel_add (w := []) hg
  have hfuel : s.rxq.length = w.length + (q.length + 1) := by rw [hq, List.length_append, List.length_cons]
  rw [quiesce, hfuel, hrun, quiesceFuel_succ (ht.pop_accept hl hw hv), quiesceFuel_of_quiet rfl]
  exact ⟨_, rfl, by simp [State.storeByte, ht.out], rfl, rfl, rfl, ht.live⟩

end

/-- OVERHEAD is the least length of a frame (R84). -/
theorem length_of_blockValid {f : List Byte} (h : blockValid f = true) : 6 ≤ f.length := by
  simp only [blockValid, Bool.and_eq_true, decide_eq_true_eq] at h
  obtain ⟨⟨⟨hlen, -⟩, -⟩, -⟩ := h
  exact hlen

/-- Settles O51: the bytes of a block-valid list before its last are gathered, and the last is their checksum. -/
theorem alignedFrameIsEmitted : Obligations.AlignedFrameIsEmitted := by
  intro s f rest hs hd hf hc hq hvalid
  obtain ⟨b, c, a, x, l, p, k, rfl⟩ := exists_fields (length_of_blockValid hvalid)
  obtain ⟨rfl, hl, hk⟩ := (blockValid_fields_iff b c a x l k p).1 hvalid
  have hw : (Config.sentinel :: c :: a :: x :: l :: p).length = 5 + l.toNat := by simp [hl]; omega
  have hg : Gatherable (Config.sentinel :: c :: a :: x :: l :: p) := ⟨by simp, by simp [hl]; omega⟩
  obtain ⟨t, hrun, hout, hrxq, hcnt, hdemand, hfault⟩ :=
    quiesce_candidate (q := rest) hs hd hf hc (by simp [hq]) hg rfl hw ((verify_append_iff _ k).2 hk)
  exact ⟨t, hrun, hout, hrxq, hcnt, hdemand, (phase_hunt_iff t).2 ⟨hfault, hcnt⟩⟩

end Sys2Proof.Machine
end

section
/-! The results of the framing operations (R130 to R139): what each leaves is its effect, and the phase after it follows from
CNT, which a byte stored raises by one without wrapping (R144). -/

namespace Sys2Proof.Machine

/-! ### The phase after each operation (R24, R139) -/

/-- CNT + 1 does not wrap where a byte is stored (R144). -/
theorem toNat_succ_cnt {s : State}
    (h : s.phase = some .header ∨ s.phase = some .length ∨ s.phase = some .payload ∨ s.phase = some .checksum) :
    (s.cnt + 1).toNat = s.cnt.toNat + 1 := by
  have := count_of_gathering h
  bv_omega

/-- Settles O16: a byte is at most 255, and CNT is at most 260 in a phase that gathers. -/
theorem nineBitSumsNeverWrap : Obligations.NineBitSumsNeverWrap := by
  refine ⟨fun l => ⟨checksumAt_toNat l, ?_⟩, fun s h => ⟨toNat_succ_cnt h, ?_⟩⟩
  · have : (checksumAt l).toNat = 5 + l.toNat := checksumAt_toNat l
    bv_omega
  · have := count_of_gathering h
    omega

theorem cnt_of_phase_length {s : State} (h : s.phase = some .length) : s.cnt = 4 :=
  BitVec.eq_of_toNat_eq ((phase_length_iff s).1 h).2

theorem cnt_of_phase_header {s : State} (h : s.phase = some .header) : s.cnt = 1 ∨ s.cnt = 2 ∨ s.cnt = 3 := by
  obtain ⟨-, h1, h3⟩ := (phase_header_iff s).1 h
  bv_omega

theorem phase_startCandidate (s : State) (h : s.phase = some .hunt) : s.startCandidate.phase = some .header :=
  (phase_header_iff _).2 ⟨((phase_hunt_iff s).1 h).1, by simp, by simp⟩

theorem phase_storeByte_of_header {s : State} (b : Byte) (h : s.phase = some .header) :
    (s.storeByte b).phase = if s.cnt = 3 then some .length else some .header := by
  obtain ⟨hf, h1, h3⟩ := (phase_header_iff s).1 h
  split
  · exact (phase_length_iff _).2 ⟨hf, show (s.cnt + 1).toNat = 4 by bv_omega⟩
  · exact (phase_header_iff _).2 ⟨hf, show 1 ≤ (s.cnt + 1).toNat ∧ (s.cnt + 1).toNat ≤ 3 by bv_omega⟩

theorem phase_storeByte_of_length {s : State} (b : Byte) (h : s.phase = some .length) :
    ((s.storeByte b).latchLen b).phase = if b = 0 then some .checksum else some .payload := by
  obtain ⟨hf, h4⟩ := (phase_length_iff s).1 h
  split
  · exact (phase_checksum_iff _).2 ⟨hf, show (s.cnt + 1).toNat = 5 + b.toNat by bv_omega⟩
  · exact (phase_payload_iff _).2
      ⟨hf, show 5 ≤ (s.cnt + 1).toNat ∧ (s.cnt + 1).toNat < 5 + b.toNat by bv_omega⟩

theorem phase_storeByte_of_payload {s : State} (b : Byte) (h : s.phase = some .payload) :
    (s.storeByte b).phase = if s.cnt.toNat = 4 + s.len.toNat then some .checksum else some .payload := by
  have hcnt := toNat_succ_cnt (.inr (.inr (.inl h)))
  obtain ⟨hf, h5, hlt⟩ := (phase_payload_iff s).1 h
  split
  · exact (phase_checksum_iff _).2 ⟨hf, show (s.cnt + 1).toNat = 5 + s.len.toNat by omega⟩
  · exact (phase_payload_iff _).2
      ⟨hf, show 5 ≤ (s.cnt + 1).toNat ∧ (s.cnt + 1).toNat < 5 + s.len.toNat by omega⟩

/-- Where the candidate of a live state ends, FS hunts. -/
theorem phase_of_candidate_end {s t : State} {p : Phase} (h : s.framingIn p = true) (hp : p ≠ .fault)
    (hf : t.fault = s.fault) (hc : t.cnt = 0) : t.phase = some .hunt :=
  (phase_hunt_iff t).2 ⟨hf.trans (live_of_framingIn h hp).2, hc⟩

theorem foldsToZero_iff (a b : Byte) : foldsToZero a b = true ↔ a = b := by simp [foldsToZero]

/-! ### The operations asked for in their phase -/

/-- Settles O3: SKIP only notes itself. -/
theorem skipResult : Obligations.SkipResult := fun s b hd hp hb =>
  (FramingEffect.skip b ((framingIn_iff s _).2 ⟨hd, hp⟩) hb).exec_eq

/-- Settles O4. -/
theorem syncResult : Obligations.SyncResult := fun s hd hp =>
  ⟨_, (FramingEffect.sync ((framingIn_iff s _).2 ⟨hd, hp⟩)).exec_eq, rfl, phase_startCandidate s hp⟩

/-- Settles O5. -/
theorem hdrResult : Obligations.HdrResult := fun s b hd hp =>
  ⟨_, (FramingEffect.hdr b ((framingIn_iff s _).2 ⟨hd, hp⟩)).exec_eq, rfl, phase_storeByte_of_header b hp⟩

/-- Settles O6: in phase LENGTH the store is at index 4. -/
theorem lenResult : Obligations.LenResult := by
  intro s b hd hp
  refine ⟨_, (FramingEffect.len b ((framingIn_iff s _).2 ⟨hd, hp⟩)).exec_eq, ?_, phase_storeByte_of_length b hp⟩
  simp only [State.storeByte, State.gather, cnt_of_phase_length hp]
  rfl

/-- Settles O7: in phase PAYLOAD the store is below the checksum position. -/
theorem payResult : Obligations.PayResult := by
  intro s b hd hp
  refine ⟨_, (FramingEffect.pay b ((framingIn_iff s _).2 ⟨hd, hp⟩)).exec_eq, rfl, phase_storeByte_of_payload b hp, ?_⟩
  obtain ⟨-, -, hlt⟩ := (phase_payload_iff s).1 hp
  have : s.len.toNat < 256 := s.len.isLt
  omega

/-- Settles O9: the candidate ends and nothing is emitted. -/
theorem dropResult : Obligations.DropResult := by
  intro s b hd hp hne
  have hin : s.framingIn .checksum = true := (framingIn_iff s _).2 ⟨hd, hp⟩
  have hz : foldsToZero s.acc b = false := beq_eq_false_iff_ne.2 hne
  exact ⟨_, (FramingEffect.drop b hin hz).exec_eq, rfl, phase_of_candidate_end hin nofun rfl rfl, hd, rfl,
    lenValue_of_no_candidate rfl, accValue_of_no_candidate rfl⟩

/-! ### POP -/

/-- Settles O11: the byte selects the operation by the phase, in HUNT by its value and in CHECKSUM by the fold. -/
theorem popPerformsTheSelectedOperation : Obligations.PopPerformsTheSelectedOperation := by
  intro s b rest hd hf hq
  have hr : s.popReady = true := (popReady_iff s).2 ⟨hd, hf, by rw [hq]; nofun⟩
  have hpop {i : Instr} (hdec : decode s.ctx (.byte b) = .ok i) : exec .pop s = exec i { s with rxq := rest } :=
    execPop_eq_exec hr hq hdec
  have hck (hp : s.phase = some .checksum) :
      decode s.ctx (.byte b) = if s.acc ^^^ b = 0 then .ok (.accept b) else .ok (.drop b) :=
    decode_byte_checksum b hp (accValue_of_pos (count_of_gathering (.inr (.inr (.inr hp)))).1)
  exact ⟨fun hp hb => hpop ((decode_byte_hunt b hp).trans (if_pos hb)),
    fun hp hb => hpop ((decode_byte_hunt b hp).trans (if_neg hb)),
    fun hp => hpop (decode_byte_header b hp),
    fun hp => hpop (decode_byte_length b hp),
    fun hp => hpop (decode_byte_payload b hp),
    fun hp hz => hpop ((hck hp).trans (if_pos hz)),
    fun hp hz => hpop ((hck hp).trans (if_neg hz))⟩

/-- Settles O14: HDR, LEN and PAY share the one store form, and none looks at the byte's value. -/
theorem positionDecidesMeaning : Obligations.PositionDecidesMeaning := by
  intro s b rest hd hf hq hphase
  obtain ⟨-, -, hhdr, hlen, hpay, -, -⟩ := popPerformsTheSelectedOperation s b rest hd hf hq
  have hin {p : Phase} (hp : s.phase = some p) : ({ s with rxq := rest } : State).framingIn p = true :=
    (framingIn_iff _ p).2 ⟨hd, hp⟩
  have hread := Buf.read_write_same s.buf s.cnt.toNat b
  rcases hphase with hp | hp | hp
  · exact ⟨_, (hhdr hp).trans (FramingEffect.hdr b (hin hp)).exec_eq, rfl, hread, rfl, rfl, hd, rfl⟩
  · exact ⟨_, (hlen hp).trans (FramingEffect.len b (hin hp)).exec_eq, rfl, hread, rfl, rfl, hd, rfl⟩
  · exact ⟨_, (hpay hp).trans (FramingEffect.pay b (hin hp)).exec_eq, rfl, hread, rfl, rfl, hd, rfl⟩

/-! ### The transition table (R139) -/

theorem FramingEffect.format_eq {s t : State} {i : Instr} (h : FramingEffect s i t) : i.format = .pop := by
  cases h <;> rfl

theorem phase_ne_fault_iff (s : State) : s.phase ≠ some .fault ↔ s.fault = .none := by
  rw [Ne, phase_fault_iff, not_not]

/-- Settles O15, row by row, from the effect of the operation. -/
theorem phaseTransitionTable : Obligations.PhaseTransitionTable := by
  intro s t i h
  cases effect_of_exec h with
  | framing he =>
    have hphase {p : Phase} (hp : s.framingIn p = true) : s.phase = some p := ((framingIn_iff s p).1 hp).2
    cases he with
    | sync hp =>
      exact ⟨hphase hp, ((phase_hunt_iff s).1 (hphase hp)).2, rfl, phase_startCandidate s (hphase hp)⟩
    | skip b hp hb =>
      have hc : s.cnt = 0 := ((phase_hunt_iff s).1 (hphase hp)).2
      exact ⟨hphase hp, hb, hc, hc, hphase hp⟩
    | hdr b hp =>
      exact ⟨hphase hp, cnt_of_phase_header (hphase hp), rfl, phase_storeByte_of_header b (hphase hp)⟩
    | len b hp =>
      have hc : s.cnt = 4 := cnt_of_phase_length (hphase hp)
      exact ⟨hphase hp, hc, congrArg (· + 1) hc, phase_storeByte_of_length b (hphase hp)⟩
    | pay b hp =>
      obtain ⟨-, h5, hlt⟩ := (phase_payload_iff s).1 (hphase hp)
      exact ⟨hphase hp, h5, hlt, toNat_succ_cnt (.inr (.inr (.inl (hphase hp)))),
        phase_storeByte_of_payload b (hphase hp)⟩
    | accept b f hp hz =>
      exact ⟨hphase hp, ((phase_checksum_iff s).1 (hphase hp)).2, (foldsToZero_iff s.acc b).1 hz, rfl,
        phase_of_candidate_end hp nofun rfl rfl⟩
    | drop b hp hz =>
      have hne : s.acc ≠ b := fun he => by simp [(foldsToZero_iff s.acc b).2 he] at hz
      exact ⟨hphase hp, ((phase_checksum_iff s).1 (hphase hp)).2, hne, rfl, phase_of_candidate_end hp nofun rfl rfl⟩
  | pop hr hq hd he =>
    have hf : s.fault = .none := ((popReady_iff s).1 hr).2.1
    exact ⟨(phase_ne_fault_iff s).2 hf, (phase_ne_fault_iff t).2 (he.fault_eq.trans hf), _, _, _, hq, hd, he.format_eq,
      rfl, he.exec_eq⟩
  | failed k hr =>
    exact ⟨(phase_ne_fault_iff s).2 ((rdreq_iff s).1 hr).2.1, rfl, (phase_fault_iff _).2 nofun⟩
  | reset => exact ⟨rfl, (phase_hunt_iff _).2 ⟨rfl, rfl⟩⟩
  | demanded | reported | received | noData | gstart | gbyte | gend => exact ⟨rfl, rfl⟩

end Sys2Proof.Machine
end

section
/-! A whole candidate (R80, R82, R143): 6 + N bytes, the sentinel first and N fifth. It ends in ACCEPT or DROP by its fold. -/

namespace Sys2Proof.Machine

/-- The bytes a candidate with length byte `l` consists of, whatever they fold to. -/
structure WholeCandidate (f : List Byte) (l : Byte) : Prop where
  first : f[0]? = some Config.sentinel
  fifth : f[4]? = some l
  length : f.length = 6 + l.toNat

/-- Block-valid is whole, with a fold of zero (R84). -/
theorem WholeCandidate.blockValid_eq {f : List Byte} {l : Byte} (h : WholeCandidate f l) : blockValid f = verify f := by
  have hlen : l.toNat = f.length - Config.overhead := by
    rw [h.length]
    exact (Nat.add_sub_cancel_left 6 l.toNat).symm
  have h6 : 6 ≤ f.length := by rw [h.length]; omega
  simp [blockValid, h6, h.first, h.fifth, ← hlen]

/-- One byte more than LEN allows before the checksum byte. -/
theorem Gatherable.whole {w : List Byte} {l : Byte} (h : Gatherable w) (hl : w[4]? = some l)
    (hw : w.length = 5 + l.toNat) (b : Byte) : WholeCandidate (w ++ [b]) l where
  first := by
    have h0 : 0 < w.length := by omega
    rw [List.getElem?_append_left h0, List.getElem?_eq_getElem h0, h.first _ (List.getElem?_eq_getElem h0)]
  fifth := by rw [List.getElem?_append_left (by omega), hl]
  length := by rw [List.length_append, hw, List.length_singleton]; omega

/-- A whole candidate is gathered up to its last byte, the checksum byte. -/
theorem WholeCandidate.exists_gatherable {f : List Byte} {l : Byte} (h : WholeCandidate f l) :
    ∃ w b, f = w ++ [b] ∧ Gatherable w ∧ w[4]? = some l ∧ w.length = 5 + l.toNat := by
  have hlen := h.length
  obtain rfl | ⟨w, b, rfl⟩ := List.eq_nil_or_concat' f
  · cases h.first
  · rw [List.length_append, List.length_singleton] at hlen
    have hw {i : Nat} (hi : i ≤ 4) : w[i]? = (w ++ [b])[i]? := (List.getElem?_append_left (by omega)).symm
    have h4 : w[4]? = some l := (hw (Nat.le_refl 4)).trans h.fifth
    refine ⟨w, b, rfl, ⟨fun c hc => ?_, fun m hm => ?_⟩, h4, by omega⟩
    · exact Option.some.inj ((Option.mem_def.1 hc).symm.trans ((hw (Nat.zero_le 4)).trans h.first))
    · obtain rfl : m = l := Option.some.inj ((Option.mem_def.1 hm).symm.trans h4)
      omega

/-! ### The candidate in BUF, in a state that meets the invariants -/

theorem candidate_of_cnt_zero {s : State} (h : s.cnt = 0) : s.candidate = some [] := by
  rw [State.candidate, h]
  rfl

theorem State.Framed.exists_candidate {s : State} (h : s.Framed) : ∃ w, s.candidate = some w := by
  by_cases hc : s.cnt = 0
  · exact ⟨[], candidate_of_cnt_zero hc⟩
  · obtain ⟨w, hw, -⟩ := Option.map_eq_some_iff.1 (h.accumulator hc)
    exact ⟨w, hw⟩

/-- The fifth byte gathered is in LEN (item 2 of R32). -/
theorem State.Framed.fifth_byte {s : State} {w : List Byte} (h : s.Framed) (hw : s.candidate = some w)
    (h5 : 5 ≤ w.length) : w[4]? = some s.len := by
  have hcnt : 5 ≤ s.cnt.toNat := length_of_candidate hw ▸ h5
  rw [Buf.block_getElem hw (by omega)]
  exact (h.length (BitVec.le_def.2 hcnt)).1

/-- The invariants leave in BUF only bytes that lack the checksum byte. -/
theorem State.Framed.gatherable {s : State} {w : List Byte} (h : s.Framed) (hw : s.candidate = some w) : Gatherable w := by
  have hlen := length_of_candidate hw
  refine ⟨fun b hb => ?_, fun l hl => ?_⟩
  · obtain ⟨h0, -⟩ := List.getElem?_eq_some_iff.1 hb
    have hne : s.cnt ≠ 0 := fun hc => by
      rw [hlen, hc] at h0
      exact absurd h0 (by decide)
    rw [Buf.block_getElem hw (by omega), h.sentinel hne] at hb
    exact (Option.some.inj hb).symm
  · obtain ⟨h4, -⟩ := List.getElem?_eq_some_iff.1 hl
    obtain rfl : s.len = l := Option.some.inj ((h.fifth_byte hw h4).symm.trans hl)
    have hle := (h.length (BitVec.le_def.2 (show 5 ≤ s.cnt.toNat by omega))).2
    rw [BitVec.le_def, checksumAt_toNat] at hle
    omega

/-- In phase CHECKSUM the next byte makes the candidate whole. -/
theorem State.Framed.whole_of_checksum {s : State} {w : List Byte} (h : s.Framed) (hw : s.candidate = some w)
    (hp : s.phase = some .checksum) (b : Byte) : WholeCandidate (w ++ [b]) s.len := by
  have hlen : w.length = 5 + s.len.toNat := (length_of_candidate hw).trans ((phase_checksum_iff s).1 hp).2
  exact (h.gatherable hw).whole (h.fifth_byte hw (by omega)) hlen b

/-- Settles O8: the frame emitted is what BUF holds after the checksum byte is stored; under the invariants it is whole and
the zero test has verified it. -/
theorem acceptResult : Obligations.AcceptResult := by
  intro s b f hd hp hz hcand
  have hin : s.framingIn .checksum = true := (framingIn_iff s _).2 ⟨hd, hp⟩
  have hzero : foldsToZero s.acc b = true := beq_iff_eq.2 hz
  have hcnt := (count_of_gathering (.inr (.inr (.inr hp)))).2
  refine ⟨_, (FramingEffect.accept b _ hin hzero (candidate_storeByte b hcnt hcand)).exec_eq, ?_,
    phase_of_candidate_end hin nofun rfl rfl, rfl, lenValue_of_no_candidate rfl, accValue_of_no_candidate rfl,
    fun hs => ?_⟩
  · rw [State.storeByte, hz]
    rfl
  · obtain ⟨-, -, hverify, -⟩ := validatorVerifiesTheWholeBuffer s f b hs hp hcand
    rw [(hs.whole_of_checksum hcand hp b).blockValid_eq, ← hverify, hzero]

/-! ### The run over one candidate (R143) -/

/-- The POP of the checksum byte, where the whole candidate does not verify (R138). -/
theorem Gathered.pop_drop {s t : State} {w q : List Byte} {b l : Byte} (h : Gathered s w (b :: q) t)
    (hl : w[4]? = some l) (hw : w.length = 5 + l.toNat) (hv : verify (w ++ [b]) = false) :
    react .pop t = .next ((({ t with rxq := q } : State).storeByte b).endCandidate.note .drop) := by
  have hp := h.phase_checksum hl hw
  obtain ⟨-, -, hverify, -⟩ := validatorVerifiesTheWholeBuffer t w b h.framed hp h.candidate
  have hz : foldsToZero t.acc b = false := hverify.trans hv
  have hd : decode t.ctx (.byte b) = .ok (.drop b) :=
    (decode_byte_checksum b hp (accValue_of_pos (by rw [h.cnt]; omega))).trans (if_neg (beq_eq_false_iff_ne.1 hz))
  rw [react_pop_eq_exec h.popReady h.rxq hd]
  exact (FramingEffect.drop (s := { t with rxq := q }) b ((framingIn_iff _ _).2 ⟨h.demand, hp⟩) hz).exec_eq

/-- SYNC, three HDR, LEN and a PAY for each byte more (R132 to R135). -/
theorem map_gatheringOp_range (n : Nat) :
    (List.range (5 + n)).map gatheringOp = [.sync, .hdr, .hdr, .hdr, .len] ++ List.replicate n .pay := by
  have hpay : gatheringOp ∘ (5 + ·) = Function.const Nat .pay := funext fun i => by
    simp only [Function.comp, Function.const, gatheringOp]
    rw [if_neg (by omega), if_neg (by omega), if_neg (by omega)]
  rw [List.range_add, List.map_append, List.map_map, hpay, List.map_const, List.length_range]
  rfl

/-- Settles O50: all bytes but the last are gathered, and the POP of the last ends the candidate by its fold. -/
theorem candidateConsumesSixPlusLength : Obligations.CandidateConsumesSixPlusLength := by
  intro s f rest n hs hd hf hc hq h0 h4 hlen
  obtain ⟨w, b, rfl, hg, hl, hw⟩ := WholeCandidate.exists_gatherable ⟨h0, h4, hlen⟩
  have hq' : s.rxq = w ++ b :: rest := by simp [hq]
  obtain ⟨t, ht, hrun⟩ := (hq' ▸ gathered_nil hs hd hf hc).quiesceFuel_add (w := []) hg
  have hops : t.ops = s.ops ++ ([.sync, .hdr, .hdr, .hdr, .len] ++ List.replicate n.toNat .pay) := by
    rw [ht.ops, List.nil_append, hw, map_gatheringOp_range]
  have hfuel : 6 + n.toNat = w.length + 1 := by omega
  rw [hfuel, hrun]
  cases hv : verify (w ++ [b]) with
  | true =>
    rw [quiesceFuel_succ (ht.pop_accept hl hw hv)]
    exact ⟨_, rfl, rfl, rfl, (phase_hunt_iff _).2 ⟨ht.live, rfl⟩, by simp [State.storeByte, hops],
      by simp [State.storeByte, ht.out], rfl⟩
  | false =>
    rw [quiesceFuel_succ (ht.pop_drop hl hw hv)]
    exact ⟨_, rfl, rfl, rfl, (phase_hunt_iff _).2 ⟨ht.live, rfl⟩, by simp [State.storeByte, hops],
      by simp [State.storeByte, ht.out], ht.demand⟩

end Sys2Proof.Machine
end

section
/-! `scan` (R141): the lists it leaves as they are, and what it does with the first byte or the first whole candidate.
`ScansTo bs F r` says that `scan`, having read `bs`, has found the frames `F` and goes on with `r`, whatever comes behind. -/

namespace Sys2Proof.Machine

/-! ### The fuel (log 18) -/

theorem scanFuel_succ {n : Nat} {bs : List Byte} (h : bs.length ≤ n) : scanFuel (n + 1) bs = scanFuel n bs := by
  induction n generalizing bs with
  | zero =>
    obtain rfl := List.eq_nil_of_length_eq_zero (Nat.le_zero.1 h)
    rfl
  | succ n ih =>
    cases bs with
    | nil => rfl
    | cons b bs =>
      have htail : scanFuel (n + 1) bs = scanFuel n bs := ih (Nat.le_of_succ_le_succ h)
      have hdrop (k : Nat) :
          scanFuel (n + 1) ((b :: bs).drop (6 + k)) = scanFuel n ((b :: bs).drop (6 + k)) :=
        ih (by rw [List.length_drop]; omega)
      rw [scanFuel, scanFuel, htail]
      simp only [hdrop]

theorem scanFuel_eq_scan {n : Nat} {bs : List Byte} (h : bs.length ≤ n) : scanFuel n bs = scan bs := by
  induction n, h using Nat.le_induction with
  | base => rfl
  | succ n hn ih => rw [scanFuel_succ hn, ih]

/-! ### What `scan` does with the head of a list -/

theorem scan_cons_of_ne {b : Byte} (bs : List Byte) (h : b ≠ Config.sentinel) : scan (b :: bs) = scan bs := by
  rw [scan, List.length_cons, scanFuel, if_pos h, scan]

/-- Bytes that lack the checksum byte are the incomplete candidate. -/
theorem scan_gatherable {w : List Byte} (h : Gatherable w) : scan w = ([], w) := by
  match w with
  | [] => rfl
  | b :: w =>
    obtain rfl : b = Config.sentinel := h.first b rfl
    rw [scan, List.length_cons, scanFuel, if_neg (not_not.2 rfl)]
    cases hl : (Config.sentinel :: w)[4]? with
    | none => rfl
    | some l =>
      have hlt : (Config.sentinel :: w).length < 6 + l.toNat := by
        have := h.fits l hl
        omega
      exact if_pos hlt

/-- A whole candidate is taken out, and is a frame where it verifies. -/
theorem WholeCandidate.scan_append {f : List Byte} {l : Byte} (h : WholeCandidate f l) (bs : List Byte) :
    scan (f ++ bs) = ((if verify f then [f] else []) ++ (scan bs).1, (scan bs).2) := by
  match f with
  | [] => cases h.first
  | b :: f =>
    obtain rfl : b = Config.sentinel := Option.some.inj h.first
    have hlen := h.length
    have h4 : (Config.sentinel :: (f ++ bs))[4]? = some l := by
      rw [← List.cons_append, List.getElem?_append_left (by omega)]
      exact h.fifth
    have htake : (Config.sentinel :: (f ++ bs)).take (6 + l.toNat) = Config.sentinel :: f := by
      rw [← hlen, ← List.cons_append, List.take_left]
    have hdrop : (Config.sentinel :: (f ++ bs)).drop (6 + l.toNat) = bs := by
      rw [← hlen, ← List.cons_append, List.drop_left]
    have hnlt : ¬ (Config.sentinel :: (f ++ bs)).length < 6 + l.toNat := by
      rw [← hlen]
      simp
    rw [List.cons_append, scan, List.length_cons, scanFuel, if_neg (not_not.2 rfl), h4]
    simp only [hnlt, if_false, htake, hdrop, scanFuel_eq_scan (show bs.length ≤ (f ++ bs).length by simp)]
    have hiff : verify (Config.sentinel :: f) = true ↔ fold Config.seed (Config.sentinel :: f) = 0 := verify_iff _
    by_cases hv : fold Config.seed (Config.sentinel :: f) = 0
    · rw [if_pos hv, if_pos (hiff.2 hv)]
      rfl
    · rw [if_neg hv, if_neg (mt hiff.1 hv)]
      rfl

/-! ### Reading on -/

/-- Having read `bs`, `scan` has found `F` and goes on with `r`. -/
def ScansTo (bs : List Byte) (F : List (List Byte)) (r : List Byte) : Prop :=
  ∀ x, scan (bs ++ x) = (F ++ (scan (r ++ x)).1, (scan (r ++ x)).2)

theorem ScansTo.refl (bs : List Byte) : ScansTo bs [] bs := fun _ => rfl

theorem ScansTo.trans {bs r q : List Byte} {F G : List (List Byte)} (h : ScansTo bs F r) (h' : ScansTo r G q) :
    ScansTo bs (F ++ G) q := fun x => by
  rw [h x, h' x, List.append_assoc]

/-- Bytes that come behind come behind what is left. -/
theorem ScansTo.append {bs r : List Byte} {F : List (List Byte)} (h : ScansTo bs F r) (y : List Byte) :
    ScansTo (bs ++ y) F (r ++ y) := fun x => by
  simpa only [List.append_assoc] using h (y ++ x)

theorem ScansTo.scan_eq {bs r : List Byte} {F : List (List Byte)} (h : ScansTo bs F r) :
    scan bs = (F ++ (scan r).1, (scan r).2) := by
  simpa only [List.append_nil] using h []

theorem scansTo_skip {b : Byte} (h : b ≠ Config.sentinel) : ScansTo [b] [] [] := fun x => scan_cons_of_ne x h

theorem WholeCandidate.scansTo {f : List Byte} {l : Byte} (h : WholeCandidate f l) :
    ScansTo f (if verify f then [f] else []) [] := h.scan_append

end Sys2Proof.Machine
end

section
/-! FS against `scan` (R141, R142). `Streamed s d t` relates a hunting state `s` with an empty backlog to the state `t` after a
run in which the bytes `d` have been delivered: the frames emitted are those `scan` has found in `d`, and it goes on with the
candidate and the backlog. Every event of a stream that goes on keeps the relation. -/

namespace Sys2Proof.Machine

/-! ### One byte examined -/

theorem candidate_startCandidate (s : State) : s.startCandidate.candidate = some [Config.sentinel] :=
  Buf.block_write (m := s.buf) (n := 0) Config.sentinel rfl

/-- The operation a byte selects does with the candidate and the byte what `scan` does with them. -/
theorem FramingEffect.scansTo {s t : State} {i : Instr} {b : Byte} {w : List Byte} (h : FramingEffect s i t)
    (hs : s.Framed) (hf : s.fault = .none) (hd : decode s.ctx (.byte b) = .ok i) (hw : s.candidate = some w) :
    ∃ G w', t.candidate = some w' ∧ framesOf t.out = framesOf s.out ++ G ∧ ScansTo (w ++ [b]) G w' ∧
      ∀ f ∈ G, blockValid f = true := by
  have hsilent : framesOf s.out = framesOf s.out ++ [] := (List.append_nil _).symm
  have hstored : (s.storeByte b).candidate = some (w ++ [b]) := candidate_storeByte b hs.count hw
  rcases hs.byte_phase hf with hp | hp | hp | hp | hp
  · have hc : s.cnt = 0 := ((phase_hunt_iff s).1 hp).2
    obtain rfl : [] = w := Option.some.inj ((candidate_of_cnt_zero hc).symm.trans hw)
    by_cases hb : b = Config.sentinel
    · cases ((decode_byte_hunt b hp).trans (if_pos hb)).symm.trans hd
      cases h
      exact ⟨[], [b], hb ▸ candidate_startCandidate s, hsilent, .refl [b], nofun⟩
    · cases ((decode_byte_hunt b hp).trans (if_neg hb)).symm.trans hd
      cases h
      exact ⟨[], [], hw, hsilent, scansTo_skip hb, nofun⟩
  · cases (decode_byte_header b hp).symm.trans hd
    cases h
    exact ⟨[], _, hstored, hsilent, .refl _, nofun⟩
  · cases (decode_byte_length b hp).symm.trans hd
    cases h
    exact ⟨[], _, hstored, hsilent, .refl _, nofun⟩
  · cases (decode_byte_payload b hp).symm.trans hd
    cases h
    exact ⟨[], _, hstored, hsilent, .refl _, nofun⟩
  · have hwhole := hs.whole_of_checksum hw hp b
    have hscan := hwhole.scansTo
    obtain ⟨-, -, hverify, -⟩ := validatorVerifiesTheWholeBuffer s w b hs hp hw
    have hacc := accValue_of_pos (count_of_gathering (.inr (.inr (.inr hp)))).1
    by_cases hz : s.acc ^^^ b = 0
    · cases ((decode_byte_checksum b hp hacc).trans (if_pos hz)).symm.trans hd
      have hv : verify (w ++ [b]) = true := hverify.symm.trans (beq_iff_eq.2 hz)
      rw [if_pos hv] at hscan
      cases h with
      | accept b f _ _ hcand =>
        obtain rfl : f = w ++ [b] := Option.some.inj (hcand.symm.trans hstored)
        exact ⟨[w ++ [b]], [], rfl, framesOf_append _ _, hscan, by simp [hwhole.blockValid_eq, hv]⟩
    · cases ((decode_byte_checksum b hp hacc).trans (if_neg hz)).symm.trans hd
      have hv : verify (w ++ [b]) = false := hverify.symm.trans (beq_eq_false_iff_ne.2 hz)
      rw [hv] at hscan
      cases h
      exact ⟨[], [], rfl, hsilent, hscan, nofun⟩

/-! ### One event -/

/-- What FS has made of the bytes `d` delivered since `s`. -/
structure Streamed (s : State) (d : List Byte) (t : State) : Prop where
  framed : t.Framed
  live : t.fault = .none
  found : ∃ F w, t.candidate = some w ∧ framesOf t.out = framesOf s.out ++ F ∧ ScansTo d F (w ++ t.rxq) ∧
    ∀ f ∈ F, blockValid f = true

theorem streamed_nil {s : State} (h : s.Framed) (hf : s.fault = .none) (hc : s.cnt = 0) (hq : s.rxq = []) :
    Streamed s [] s :=
  ⟨h, hf, [], [], candidate_of_cnt_zero hc, (List.append_nil _).symm, by rw [hq]; exact .refl [],
    nofun⟩

/-- Bytes may come in behind the backlog; neither the candidate nor the frames change with them. -/
theorem Streamed.after_delivery {s t u : State} {d : List Byte} (h : Streamed s d t) (bs : List Byte) (hu : u.Framed)
    (hf : u.fault = t.fault) (hc : u.candidate = t.candidate) (ho : framesOf u.out = framesOf t.out)
    (hq : u.rxq = t.rxq ++ bs) : Streamed s (d ++ bs) u := by
  obtain ⟨F, w, hw, hout, hscan, hvalid⟩ := h.found
  refine ⟨hu, hf.trans h.live, F, w, hc.trans hw, ho.trans hout, ?_, hvalid⟩
  rw [hq, ← List.append_assoc]
  exact hscan.append bs

/-- FS examines the oldest byte of the backlog. -/
theorem Streamed.after_pop {s t u : State} {d q : List Byte} {b : Byte} {i : Instr} (h : Streamed s d t) (hq : t.rxq = b :: q)
    (hd : decode t.ctx (.byte b) = .ok i) (hx : FramingEffect { t with rxq := q } i u) : Streamed s d u := by
  obtain ⟨F, w, hw, hout, hscan, hvalid⟩ := h.found
  have ht := h.framed.withRxq h.live q
  obtain ⟨G, w', hw', hout', hscan', hvalid'⟩ := hx.scansTo ht h.live hd hw
  have hstep : ScansTo (w ++ t.rxq) G (w' ++ u.rxq) := by
    rw [hq, hx.rxq_eq, List.append_cons]
    exact hscan'.append q
  refine ⟨hx.framed ht, hx.fault_eq.trans h.live, F ++ G, w', hw', ?_, hscan.trans hstep, ?_⟩
  · rw [hout', hout, List.append_assoc]
  · exact fun f hf => (List.mem_append.1 hf).elim (hvalid f) (hvalid' f)

/-- The decoder answers an operation of the event it is given. -/
theorem event_of_decode {c : Ctx} {e : Event} {i : Instr} (h : decode c e = .ok i) (hb : ∀ b, e ≠ .byte b) :
    i.event = e := by
  obtain ⟨op, hop⟩ := instrOf_of_decode h
  cases e with
  | byte b => exact absurd rfl (hb b)
  | pop => cases op <;> cases hop; rfl
  | input e => cases op <;> cases e <;> cases hop <;> rfl

/-- Every event of a stream that goes on keeps the relation, with the bytes it delivers. -/
theorem Streamed.after_react {s t u : State} {d : List Byte} {e : Event} (h : Streamed s d t) (he : staysInStream e = true)
    (hx : react e t = .next u) : Streamed s (d ++ delivered [e]) u := by
  obtain ⟨i, hd, hi⟩ := react_eq_next.1 hx
  have heffect := effect_of_exec hi
  have hu : u.Framed := heffect.framed h.framed
  obtain rfl : i.event = e := event_of_decode hd (by rintro b rfl; cases he)
  cases heffect with
  | framing hf => cases hf <;> cases he
  | pop _ hq hdec hf => exact (List.append_nil d).symm ▸ h.after_pop hq hdec hf
  | demanded | noData | gstart => exact h.after_delivery [] hu rfl rfl rfl (List.append_nil _).symm
  | reported k hf => exact nomatch hf.symm.trans h.live
  | received bs =>
    have hbs : delivered [.input (.rxchunk bs)] = bs := List.append_nil bs
    exact h.after_delivery _ hu rfl rfl rfl (congrArg (t.rxq ++ ·) hbs.symm)
  | gbyte | gend => exact h.after_delivery [] hu rfl rfl (by simp [framesOf]) (List.append_nil _).symm
  | failed | reset => cases he

theorem delivered_cons (e : Event) (es : List Event) : delivered (e :: es) = delivered [e] ++ delivered es := by
  cases e with
  | input e => cases e <;> simp [delivered]
  | pop | byte b => rfl

theorem Streamed.after_events {s t u : State} {d : List Byte} {es : List Event} (h : Streamed s d t)
    (he : ∀ e ∈ es, staysInStream e = true) (hx : reactEvents es t = .next u) :
    Streamed s (d ++ delivered es) u := by
  induction es generalizing d t with
  | nil => cases hx; exact (List.append_nil d).symm ▸ h
  | cons e es ih =>
    obtain ⟨v, hv, hrest⟩ := andThen_eq_next.1 hx
    rw [delivered_cons, ← List.append_assoc]
    exact ih (h.after_react (he e List.mem_cons_self) hv) (fun x hx => he x (List.mem_cons_of_mem e hx)) hrest

/-! ### The frames -/

/-- With the backlog examined FS has emitted all the frames of `scan` and holds the candidate it leaves. -/
theorem Streamed.scan_eq {s t : State} {d : List Byte} (h : Streamed s d t) (hq : t.rxq = []) :
    framesOf t.out = framesOf s.out ++ (scan d).1 ∧ t.candidate = some (scan d).2 ∧
      ∀ f ∈ (scan d).1, blockValid f = true := by
  obtain ⟨F, w, hw, hout, hscan, hvalid⟩ := h.found
  have heq : scan d = (F, w) := by
    rw [hscan.scan_eq, hq, List.append_nil, scan_gatherable (h.framed.gatherable hw), List.append_nil]
  rw [heq]
  exact ⟨hout, hw, hvalid⟩

/-- Settles O53: the frames emitted are a beginning of those of `scan`, by the relation kept along the run. -/
theorem framesDoNotDependOnChunkingOrTiming : Obligations.FramesDoNotDependOnChunkingOrTiming := by
  intro s t es hs hf hc hq he hrun
  have h : Streamed s (delivered es) t := (streamed_nil hs hf hc hq).after_events he hrun
  obtain ⟨F, w, -, hout, hscan, -⟩ := h.found
  refine ⟨⟨F.length, ?_⟩, fun ht => ?_⟩
  · rw [hout, hscan.scan_eq, List.take_left]
  · obtain ⟨hframes, hcand, -⟩ := h.scan_eq ht
    exact ⟨hframes, hcand⟩

/-! ### The eager consumer (R141) -/

theorem react_next {s : State} (h : s.fault = .none) : react (.input .next) s = .next s.setDemand := by
  rw [react_of_decode (decode_next _)]
  simp only [exec, execNext, h]

/-- While RDREQ = 1 the answer of a read enters the backlog, one of no bytes too. -/
theorem react_readResult {s : State} {c : List Byte} (h : s.rdreq = true) (hc : c.length ≤ Config.rxChunkMax) :
    react (.input (readResult c)) s = .next (s.pushRx c) := by
  have hph : s.phase ≠ some .fault := (phase_ne_fault_iff s).2 ((rdreq_iff s).1 h).2.1
  by_cases hnil : c = []
  · subst hnil
    have hpush : s.pushRx [] = s := by simp [State.pushRx]
    rw [hpush]
    refine (react_of_decode ((decode_rxnodata _).trans (if_pos ⟨hph, h⟩))).trans ?_
    simp only [exec, execRxnodata, h, if_true]
  · have hadm : chunkAdmitted c = true := by
      simp [chunkAdmitted, hc, Nat.one_le_iff_ne_zero, hnil]
    rw [readResult, if_neg hnil, react_of_decode ((decode_rxchunk _ c).trans (if_pos ⟨hph, h⟩))]
    simp only [exec, execRxchunk, h, hadm, if_true]

theorem delivered_readResult (c : List Byte) : delivered [.input (readResult c)] = c := by
  by_cases hc : c = [] <;> simp [readResult, hc, delivered]

/-- Under the invariants an enabled POP completes, whichever operation its byte selects (R156). -/
theorem State.Framed.exists_react_pop {s : State} (h : s.Framed) (hr : s.popReady = true) :
    ∃ t, react .pop s = .next t := by
  obtain ⟨hd, hf, hne⟩ := (popReady_iff s).1 hr
  obtain ⟨b, q, hq⟩ := List.exists_cons_of_ne_nil hne
  have hph : s.phase ≠ some .fault := (phase_ne_fault_iff s).2 hf
  rw [react_of_decode ((decode_pop s.ctx).trans (if_pos ⟨hph, hr⟩))]
  obtain ⟨hsync, hskip, hhdr, hlen, hpay, haccept, hdrop⟩ := popPerformsTheSelectedOperation s b q hd hf hq
  rcases h.byte_phase hf with hp | hp | hp | hp | hp
  · by_cases hb : b = 0xAA
    · obtain ⟨t, ht, -⟩ := syncResult { s with rxq := q } hd hp
      exact ⟨t, (hsync hp hb).trans ht⟩
    · exact ⟨_, (hskip hp hb).trans (skipResult { s with rxq := q } b hd hp hb)⟩
  · obtain ⟨t, ht, -⟩ := hdrResult { s with rxq := q } b hd hp
    exact ⟨t, (hhdr hp).trans ht⟩
  · obtain ⟨t, ht, -⟩ := lenResult { s with rxq := q } b hd hp
    exact ⟨t, (hlen hp).trans ht⟩
  · obtain ⟨t, ht, -⟩ := payResult { s with rxq := q } b hd hp
    exact ⟨t, (hpay hp).trans ht⟩
  · by_cases hz : s.acc ^^^ b = 0
    · obtain ⟨w, hw⟩ := h.exists_candidate
      obtain ⟨t, ht, -⟩ := acceptResult { s with rxq := q } b w hd hp hz hw
      exact ⟨t, (haccept hp hz).trans ht⟩
    · obtain ⟨t, ht, -⟩ := dropResult { s with rxq := q } b hd hp hz
      exact ⟨t, (hdrop hp hz).trans ht⟩

theorem Streamed.setDemand {s t : State} {d : List Byte} (h : Streamed s d t) : Streamed s d t.setDemand := by
  simpa [delivered] using h.after_react rfl (react_next h.live)

/-- A NEXT before each byte, and FS examines the whole backlog. -/
theorem Streamed.exists_drainFuel {n : Nat} {s t : State} {d : List Byte} (h : Streamed s d t) (hn : t.rxq.length ≤ n) :
    ∃ u, drainFuel n t = .next u ∧ Streamed s d u ∧ u.rxq = [] := by
  induction n generalizing t with
  | zero => exact ⟨t, rfl, h, List.eq_nil_of_length_eq_zero (Nat.le_zero.1 hn)⟩
  | succ n ih =>
    by_cases hq : t.rxq = []
    · exact ⟨t, if_pos hq, h, hq⟩
    · have hnext := react_next h.live
      have hdemanded := h.setDemand
      have hready : t.setDemand.popReady = true := (popReady_iff _).2 ⟨rfl, h.live, hq⟩
      obtain ⟨v, hv⟩ := hdemanded.framed.exists_react_pop hready
      have hpopped : Streamed s d v := by simpa [delivered] using hdemanded.after_react rfl hv
      have hlen : v.rxq.length + 1 = t.rxq.length := rxq_length_of_react_pop (s := t.setDemand) hv
      obtain ⟨u, hu, hstreamed, hempty⟩ := ih hpopped (by omega)
      refine ⟨u, ?_, hstreamed, hempty⟩
      rw [drainFuel, if_neg hq, hnext, andThen_next, hv, andThen_next, hu]

theorem Streamed.exists_feed {s t : State} {d : List Byte} {cs : List (List Byte)} (h : Streamed s d t) (hq : t.rxq = [])
    (hc : ∀ c ∈ cs, c.length ≤ Config.rxChunkMax) :
    ∃ u, feed cs t = .next u ∧ Streamed s (d ++ cs.flatten) u ∧ u.rxq = [] := by
  induction cs generalizing d t with
  | nil => exact ⟨t, rfl, (List.append_nil d).symm ▸ h, hq⟩
  | cons c cs ih =>
    have hnext := react_next h.live
    have hread := react_readResult ((rdreq_iff t.setDemand).2 ⟨rfl, h.live, hq⟩) (hc c List.mem_cons_self)
    have hstays : staysInStream (.input (readResult c)) = true := by
      by_cases hnil : c = [] <;> simp [readResult, hnil, staysInStream]
    have hreceived := h.setDemand.after_react hstays hread
    rw [delivered_readResult] at hreceived
    obtain ⟨v, hv, hdrained, hempty⟩ := hreceived.exists_drainFuel (Nat.le_refl _)
    obtain ⟨u, hu, hstreamed, hend⟩ := ih hdrained hempty fun x hx => hc x (List.mem_cons_of_mem c hx)
    refine ⟨u, ?_, by simpa using hstreamed, hend⟩
    rw [feed, hnext, andThen_next, hread, andThen_next, drain, hv, andThen_next, hu]

/-- Settles O52: the eager consumer's run completes and leaves the backlog empty, so FS has emitted the frames of `scan`. -/
theorem framesAreThoseOfScan : Obligations.FramesAreThoseOfScan := by
  intro s cs hs hf hc hq hcs
  obtain ⟨t, hrun, h, hempty⟩ := (streamed_nil hs hf hc hq).exists_feed hq hcs
  obtain ⟨hframes, hcand, hvalid⟩ := h.scan_eq hempty
  exact ⟨t, hrun, hframes, hcand, (length_of_candidate hcand).symm, hempty, hvalid⟩

end Sys2Proof.Machine
end

section
/-! The ports (R151 to R157): what each operation does where it completes, when the transport may speak, the completion of an
enabled POP, and where the outputs come from (R158, R159, R161). -/

namespace Sys2Proof.Machine

/-! ### Single operations -/

/-- What an operation finds where it completes is enough for it to complete (R35). -/
theorem Effect.exec_eq {s t : State} {i : Instr} (h : Effect s i t) : exec i s = .next t := by
  cases h with
  | framing hf => exact hf.exec_eq
  | pop hr hq hd hf => exact (execPop_eq_exec hr hq hd).trans hf.exec_eq
  | demanded hf => simp only [exec, execNext, hf]
  | reported k hf => simp only [exec, execNext, hf]
  | received bs hr hb => simp only [exec, execRxchunk, hr, hb, if_true]
  | noData hr => simp only [exec, execRxnodata, hr, if_true]
  | failed k hr => simp only [exec, execRxfail, hr, if_true, raise_conditionOf]
  | reset | gstart | gbyte | gend => rfl

/-- Settles O2: without a candidate BUF, LEN and ACC have no value, and with no fault FS hunts. -/
theorem resetOperationResult : Obligations.ResetOperationResult := fun _ =>
  ⟨_, Effect.reset.exec_eq, rfl, (phase_hunt_iff _).2 ⟨rfl, rfl⟩, Buf.read_nil, lenValue_of_no_candidate rfl,
    accValue_of_no_candidate rfl, rfl⟩

/-- Settles O17: FAULT decides between the demand and the report. -/
theorem nextResult : Obligations.NextResult := fun _ =>
  ⟨fun hf => (Effect.demanded hf).exec_eq, fun k hf => (Effect.reported k hf).exec_eq⟩

/-- Settles O18: RDREQ = 1 says that the backlog was empty, so the bytes pushed are all it holds. -/
theorem rxchunkResult : Obligations.RxchunkResult := by
  intro s bs hr h1 hmax
  obtain ⟨hd, hf, hq⟩ := (rdreq_iff s).1 hr
  have hadm : chunkAdmitted bs = true := by simp [chunkAdmitted, h1, hmax]
  have hpush : s.pushRx bs = { s with rxq := bs } := by rw [State.pushRx, hq, List.nil_append]
  have hready : ({ s with rxq := bs } : State).popReady = true :=
    (popReady_iff _).2 ⟨hd, hf, List.ne_nil_of_length_pos h1⟩
  exact ⟨_, (Effect.received bs hr hadm).exec_eq, hpush, hpush ▸ rdreq_of_popReady hready, hpush ▸ hready⟩

/-- Settles O19. -/
theorem rxnodataResult : Obligations.RxnodataResult := fun _ hr => (Effect.noData hr).exec_eq

/-- Settles O20: the demand is answered with FATAL, and with DEMAND = 0 neither POP nor a read is wanted. -/
theorem rxfailResult : Obligations.RxfailResult := fun s k hr =>
  ⟨_, (Effect.failed k hr).exec_eq, rfl, ((rdreq_iff s).1 hr).2.2, (phase_fault_iff _).2 nofun, rfl, rfl⟩

/-- Settles O21: each RX event that completes found RDREQ = 1. -/
theorem readRequestAdmitsTheTransport : Obligations.ReadRequestAdmitsTheTransport := by
  intro s
  refine ⟨rdreq_iff s, rdreq_of_popReady, fun h t => ?_⟩
  have hstop : s.rdreq ≠ true := Bool.eq_false_iff.1 h
  exact ⟨fun bs hx => hstop (execRxchunk_inv hx).1, fun hx => hstop (execRxnodata_inv hx).1,
    fun k hx => hstop (execRxfail_inv hx).1⟩

/-! ### POP -/

/-- Settles O12: POP completes by the phase the invariants leave, and the operation its byte selects touches neither what is
left of the backlog nor FAULT. -/
theorem enabledPopCompletes : Obligations.EnabledPopCompletes := by
  intro s hs hd hf hne
  have hr : s.popReady = true := (popReady_iff s).2 ⟨hd, hf, hne⟩
  obtain ⟨t, ht⟩ := hs.exists_react_pop hr
  have hpop : exec .pop s = .next t := by
    have hph : s.phase ≠ some .fault := (phase_ne_fault_iff s).2 hf
    rwa [react_of_decode ((decode_pop s.ctx).trans (if_pos ⟨hph, hr⟩))] at ht
  have hgacc : t.gacc = s.gacc := by_contra fun h => (gacc_writer hpop h).elim nofun nofun
  cases effect_of_exec hpop with
  | framing he => cases he
  | pop _ hq _ he =>
    exact ⟨t, hpop, by rw [he.rxq_eq, hq, List.tail_cons], he.fault_eq.trans hf, hgacc, exec_pending hpop⟩

/-! ### Outputs -/

/-- Of the framing operations ACCEPT alone emits, and under the invariants its one frame is whole and verified (R137). -/
theorem FramingEffect.emitted {s t : State} {i : Instr} (h : FramingEffect s i t) (hs : s.Framed) :
    t.out = s.out ∨ ∃ b f, i = .accept b ∧ t.out = s.out ++ [.frame f] ∧ blockValid f = true ∧ f.length ≤ 261 := by
  cases h with
  | accept b f hp hz hf =>
    have hck : s.phase = some .checksum := ((framingIn_iff s _).1 hp).2
    obtain ⟨w, hw⟩ := hs.exists_candidate
    obtain rfl : w ++ [b] = f := Option.some.inj ((candidate_storeByte b hs.count hw).symm.trans hf)
    have hwhole := hs.whole_of_checksum hw hck b
    obtain ⟨-, -, hverify, -⟩ := validatorVerifiesTheWholeBuffer s w b hs hck hw
    have hl : s.len.toNat < 256 := s.len.isLt
    exact .inr ⟨b, _, rfl, rfl, hwhole.blockValid_eq.trans (hverify.symm.trans hz), by rw [hwhole.length]; omega⟩
  | _ => exact .inl rfl

/-- Settles O41, operation by operation. -/
theorem outputsComeFromTheirOperations : Obligations.OutputsComeFromTheirOperations := by
  intro s t i hs h
  cases effect_of_exec h with
  | framing he =>
    obtain hout | ⟨b, f, rfl, hout, hvalid, hmax⟩ := he.emitted hs
    · exact ⟨[], by simpa using hout, by simp⟩
    · exact ⟨_, hout, by simp [hvalid, hmax, length_of_blockValid hvalid]⟩
  | pop hr hq hd he =>
    obtain hout | ⟨b, f, rfl, hout, hvalid, hmax⟩ := he.emitted (hs.withRxq ((popReady_iff s).1 hr).2.1 _)
    · exact ⟨[], by simpa using hout, by simp⟩
    · obtain rfl := operand_of_decode_accept hd
      exact ⟨_, hout, by simp [hvalid, hmax, length_of_blockValid hvalid, hq, hd]⟩
  | reported k hf => exact ⟨[.fatal k], rfl, by simp [hf]⟩
  | failed k => exact ⟨[.fatal k], rfl, by simp⟩
  | gbyte b => exact ⟨[.tx b], rfl, by simp⟩
  | gend => exact ⟨[.tx s.gacc], rfl, by simp⟩
  | demanded | received | noData | reset | gstart => exact ⟨[], (List.append_nil _).symm, by simp⟩

/-- The frames emitted so far and the one still owed (R158). -/
def State.framesAskedFor (s : State) : Nat := (framesOf s.out).length + s.demand.toNat

/-- A framing operation that emits a frame pays with the demand that enabled it. -/
theorem FramingEffect.framesAskedFor_eq {s t : State} {i : Instr} (h : FramingEffect s i t) :
    t.framesAskedFor = s.framesAskedFor := by
  cases h with
  | accept b f hp =>
    have hd : s.demand = true := ((framingIn_iff s _).1 hp).1
    simp [State.framesAskedFor, State.storeByte, framesOf, hd]
  | _ => rfl

/-- Settles O42: NEXT alone adds to the frames asked for, where it sets DEMAND. -/
theorem eachFrameAnswersOneNext : Obligations.EachFrameAnswersOneNext := by
  intro s t i h
  change t.framesAskedFor ≤ s.framesAskedFor + _
  cases effect_of_exec h with
  | framing he => exact Nat.le_add_right_of_le he.framesAskedFor_eq.le
  | pop _ _ _ he => exact Nat.le_add_right_of_le he.framesAskedFor_eq.le
  | demanded hf => cases hd : s.demand <;> simp [State.framesAskedFor, hd, hf]
  | reported | failed | gbyte | gend | reset => simp [State.framesAskedFor, framesOf]
  | received | noData | gstart => exact Nat.le_add_right _ _

/-! ### The fatal state -/

/-- A framing operation completes outside the fatal state only. -/
theorem FramingEffect.live {s t : State} {i : Instr} (h : FramingEffect s i t) : s.fault = .none := by
  cases h with
  | sync hp | skip _ hp | hdr _ hp | len _ hp | pay _ hp | accept _ _ hp | drop _ hp =>
    exact (live_of_framingIn hp nofun).2

/-- In the fatal state every operation but RESET keeps the kind and emits no FRAME (R178). -/
theorem Effect.fatal_or_reset {s t : State} {i : Instr} {k : FatalKind} (h : Effect s i t) (hk : s.fault = .fatal k) :
    (t.fault = .fatal k ∧ framesOf t.out = framesOf s.out) ∨ i = .reset := by
  have hdead : s.fault ≠ .none := by rw [hk]; nofun
  cases h with
  | framing he => exact absurd he.live hdead
  | pop _ _ _ he => exact absurd he.live hdead
  | demanded hf => exact absurd hf hdead
  | received _ hr | noData hr | failed _ hr => exact absurd ((rdreq_iff s).1 hr).2.1 hdead
  | reset => exact .inr rfl
  | gstart => exact .inl ⟨hk, rfl⟩
  | reported | gbyte | gend => exact .inl ⟨hk, by simp [framesOf]⟩

/-- Settles O43: POP has no turn in the fatal state, a hold changes nothing, and of the events RESET alone leads out. -/
theorem fatalStateIsSticky : Obligations.FatalStateIsSticky := by
  intro s t k hk h
  cases hturn : s.turn with
  | pop rest =>
    have hf : s.fault = .none := ((popReady_iff s).1 (popReady_of_turn hturn)).2.1
    cases hk.symm.trans hf
  | take e rest =>
    simp only [step, hturn] at h
    obtain ⟨i, hd, hx⟩ := react_eq_next.1 h
    obtain hstays | rfl := (effect_of_exec hx).fatal_or_reset hk
    · exact .inl hstays
    · cases event_of_decode hd nofun
      exact .inr ⟨rest, rfl⟩
  | hold =>
    simp only [step, hturn] at h
    cases h
    exact .inl ⟨hk, rfl⟩

end Sys2Proof.Machine
end

section
/-! The exceptions (R164, R171 to R177): an admitted event always has its step, each condition of R171 is raised by one
operation, and a RESET wins over what is offered with it. -/

namespace Sys2Proof.Machine

/-! ### Admitted events (R164) -/

/-- The transport is admitted only while a read is wanted (R151). -/
theorem rdreq_of_admitted {s : State} {e : InputEvent} (h : admitted s e = true) (he : isRxEvent e = true) :
    s.rdreq = true := by
  obtain ⟨hr, -⟩ := Bool.and_eq_true_iff.1 h
  simpa [he] using hr

/-- A read result that is admitted has an admitted number of bytes (R153). -/
theorem chunkAdmitted_of_admitted {s : State} {bs : List Byte} (h : admitted s (.rxchunk bs) = true) :
    chunkAdmitted bs = true := (Bool.and_eq_true_iff.1 h).2

/-- An operation that the event selects, where it finds what it needs, is the reaction (R95). -/
theorem Effect.react_eq {s t : State} {e : Event} {i : Instr} (h : Effect s i t) (hd : decode s.ctx e = .ok i) :
    react e s = .next t :=
  (react_of_decode hd).trans h.exec_eq

/-- Whatever the environment may offer is taken, in every state: the RX events need RDREQ = 1 alone, the others nothing. -/
theorem exists_react_of_admitted {s : State} {e : InputEvent} (h : admitted s e = true) :
    ∃ t, react (.input e) s = .next t := by
  have hrx (he : isRxEvent e = true) : s.rdreq = true ∧ s.phase ≠ some .fault ∧ s.rdreq = true := by
    have hr := rdreq_of_admitted h he
    exact ⟨hr, (phase_ne_fault_iff s).2 ((rdreq_iff s).1 hr).2.1, hr⟩
  cases e with
  | rxchunk bs =>
    obtain ⟨hr, hsel⟩ := hrx rfl
    exact ⟨_, (Effect.received bs hr (chunkAdmitted_of_admitted h)).react_eq ((decode_rxchunk _ bs).trans (if_pos hsel))⟩
  | rxnodata =>
    obtain ⟨hr, hsel⟩ := hrx rfl
    exact ⟨_, (Effect.noData hr).react_eq ((decode_rxnodata _).trans (if_pos hsel))⟩
  | rxfail k =>
    obtain ⟨hr, hsel⟩ := hrx rfl
    exact ⟨_, (Effect.failed k hr).react_eq ((decode_rxfail _ k).trans (if_pos hsel))⟩
  | next =>
    cases hf : s.fault with
    | none => exact ⟨_, (Effect.demanded hf).react_eq (decode_next _)⟩
    | fatal k => exact ⟨_, (Effect.reported k hf).react_eq (decode_next _)⟩
  | reset => exact ⟨_, Effect.reset.react_eq (decode_reset _)⟩
  | gstart => exact ⟨_, Effect.gstart.react_eq (decode_gstart _)⟩
  | gbyte b => exact ⟨_, (Effect.gbyte b).react_eq (decode_gbyte _ b)⟩
  | gend => exact ⟨_, Effect.gend.react_eq (decode_gend _)⟩

/-- Settles O49, turn by turn: POP has the turn only where it is enabled, and there the invariants let it complete; an
admitted event is taken; a hold is a step. -/
theorem stepNeverStopsOnAdmittedEvents : Obligations.StepNeverStopsOnAdmittedEvents := by
  intro s hs hadm
  cases hturn : s.turn with
  | pop rest =>
    have hrest : ({ s with pending := rest } : State).Framed := hs.surround s.gacc s.out rest
    have hready : s.popReady = true := popReady_of_turn hturn
    simpa only [step, hturn] using hrest.exists_react_pop hready
  | take e rest => simpa only [step, hturn] using exists_react_of_admitted (hadm e rest hturn)
  | hold => exact ⟨s, by simp only [step, hturn]⟩

/-! ### The conditions (R171) -/

/-- Where the zero test fails at the checksum byte, the 6 + N bytes of the candidate do not verify (R136, R172). -/
theorem State.Framed.unverified_of_zero_test {s : State} {b : Byte} (h : s.Framed) (hp : s.phase = some .checksum)
    (hz : foldsToZero s.acc b = false) :
    ∃ f, s.candidate = some f ∧ (f ++ [b]).length = 6 + s.len.toNat ∧ verify (f ++ [b]) = false := by
  obtain ⟨f, hf⟩ := h.exists_candidate
  obtain ⟨-, -, hverify, -⟩ := validatorVerifiesTheWholeBuffer s f b h hp hf
  exact ⟨f, hf, (h.whole_of_checksum hf hp b).length, hverify.symm.trans hz⟩

/-- Settles O56, operation by operation: DROP raises CHECKSUM_MISMATCH, RXFAIL the two fatal conditions, and of the others
RESET alone writes FAULT. -/
theorem conditionsAreRaisedRecordedAndReported : Obligations.ConditionsAreRaisedRecordedAndReported := by
  intro s t i h
  cases effect_of_exec h with
  | framing he =>
    cases he with
    | drop b hp hz =>
      have hck : s.phase = some .checksum := ((framingIn_iff s _).1 hp).2
      exact ⟨rfl, rfl, rfl, rfl, b, rfl, hck, fun hs => hs.unverified_of_zero_test hck hz⟩
    | sync | skip | hdr | len | pay | accept => exact .inl rfl
  | pop _ _ _ he => exact .inl he.fault_eq
  | failed k hr => cases k <;> exact ⟨rfl, hr, rfl, rfl⟩
  | reset => exact .inr rfl
  | demanded | reported | received | noData | gstart | gbyte | gend => exact .inl rfl

/-! ### RESET among the events offered (R177) -/

/-- Of an arrival that offers RESET nothing else is left. -/
theorem takeArrival_of_reset {a : Arrival} (rest : List Arrival) (h : a.first = .reset ∨ .reset ∈ a.also) :
    takeArrival a rest = .take .reset rest := if_pos h

/-- Settles O45: the arrival has the turn and gives it to RESET, which is selected everywhere. -/
theorem resetOverridesWhatIsOfferedWithIt : Obligations.ResetOverridesWhatIsOfferedWithIt := by
  intro s a rest hp hmoment hreset
  have hturn : s.turn = .take .reset rest := (turn_cons_take hp hmoment).trans (takeArrival_of_reset rest hreset)
  simp only [step, hturn]
  exact Effect.reset.react_eq (decode_reset _)

end Sys2Proof.Machine
end

section
/-! What is not selected or not admitted stops, each under the model's own name (log 8, 9), and words of each event
class written out (R95, R100). -/

namespace Sys2Proof.Machine

/-! ### Stops -/

/-- The guard of a framing operation is the demand and the phase column of its row (R95). -/
theorem demand_and_phase_of_framingIn {s : State} {p : Phase} (h : s.framingIn p = true) :
    s.demand = true ∧ (s.ctx.phase == some p) = true := Bool.and_eq_true_iff.1 h

/-- The guard of ACCEPT and DROP reads ACC, which holds a value at the checksum position (R26, R136). -/
theorem accValue_of_framingIn_checksum {s : State} (h : s.framingIn .checksum = true) : s.ctx.acc = some s.acc :=
  have hck : s.phase = some .checksum := ((framingIn_iff s _).1 h).2
  accValue_of_pos (count_of_gathering (.inr (.inr (.inr hck)))).1

/-- Settles O10: the guard of each framing operation gives the demand and the operation's row of the dispatch table, so
out of place the guard fails. -/
theorem framingOperationOutOfPlaceStops : Obligations.FramingOperationOutOfPlaceStops := by
  intro s i hformat _ hout
  have hplace : ¬(s.demand = true ∧ i.selectedIn s.ctx = true) := by
    rintro ⟨hd, hsel⟩
    simp [hd, hsel] at hout
  cases i with
  | sync | hdr _ | len _ | pay _ => exact if_neg fun hguard => hplace (demand_and_phase_of_framingIn hguard)
  | skip b =>
    refine if_neg fun hguard => hplace ?_
    exact demand_and_phase_of_framingIn (Bool.and_eq_true_iff.1 hguard).1
  | accept b =>
    refine if_neg fun hguard => hplace ?_
    obtain ⟨hin, hzero⟩ := Bool.and_eq_true_iff.1 hguard
    obtain ⟨hd, hp⟩ := demand_and_phase_of_framingIn hin
    have hacc : s.acc = b := (foldsToZero_iff _ _).1 hzero
    exact ⟨hd, by simp [Instr.selectedIn, hp, accValue_of_framingIn_checksum hin, hacc]⟩
  | drop b =>
    refine if_neg fun hguard => hplace ?_
    obtain ⟨hin, hnonzero⟩ := Bool.and_eq_true_iff.1 hguard
    obtain ⟨hd, hp⟩ := demand_and_phase_of_framingIn hin
    have hacc : s.acc ≠ b := by simpa [foldsToZero] using hnonzero
    exact ⟨hd, by simp [Instr.selectedIn, hp, accValue_of_framingIn_checksum hin, hacc]⟩
  | pop | next | rxchunk _ | rxnodata | rxfail _ | reset | gstart | gbyte _ | gend => cases hformat

/-- Settles O13: each of the three cases denies one of the conditions that enable POP. -/
theorem disabledPopStops : Obligations.DisabledPopStops := by
  intro s h
  refine if_neg fun hready => ?_
  obtain ⟨hd, hf, hq⟩ := (popReady_iff s).1 hready
  rcases h with h | h | h
  · simp [hd] at h
  · exact h hf
  · exact hq h

/-- Settles O22: RDREQ is asked first, the length of the read result after it. -/
theorem rxEventsNotAdmittedStop : Obligations.RxEventsNotAdmittedStop := by
  intro s
  constructor
  · intro hr
    have hstop : ¬s.rdreq = true := Bool.eq_false_iff.1 hr
    exact ⟨fun _ => if_neg hstop, if_neg hstop, fun _ => if_neg hstop⟩
  · intro hr bs hlength
    have hbad : ¬chunkAdmitted bs = true := by
      rcases hlength with rfl | hlong
      · simp [chunkAdmitted]
      · simp [chunkAdmitted, hlong]
    exact (if_pos hr).trans (if_neg hbad)

/-! ### Words written out -/

/-- A table word of at most one byte is decoded as that byte is in `tableCtx` (log 12). -/
theorem decodeTableWord_of_decode {nbits w : Nat} {i : Instr} (hn : nbits ≤ 8)
    (h : decode tableCtx (.byte (tableByte w)) = .ok i) : decodeTableWord nbits w = some i := by
  simp only [decodeTableWord, decodeBytes, hn, h, if_true, Except.map]

/-- Settles O37: each word is the encoding of its operation or event, in a context that selects it. -/
theorem specWordsDecode : Obligations.SpecWordsDecode :=
  ⟨decodeTableWord_of_decode (Nat.le_refl 8) (decode_event (i := .sync) rfl rfl),
    decodeTableWord_of_decode (Nat.le_refl 8) (decode_event (i := .skip 0x13) rfl rfl),
    decode_event (i := .sync) rfl rfl,
    decode_event (i := .skip 0x13) rfl rfl,
    decode_event (i := .hdr 0x62) rfl rfl,
    decode_event (i := .len 0x03) rfl rfl,
    decode_event (i := .pay 0x7B) rfl rfl,
    decode_event (i := .accept 0x1F) rfl rfl,
    decode_event (i := .drop 0x1F) rfl rfl,
    decodeOfEncodeIsIdentity .pop _ [] rfl rfl,
    decodeOfEncodeIsIdentity .next _ [] rfl rfl,
    decodeOfEncodeIsIdentity .reset _ [] rfl rfl,
    decodeOfEncodeIsIdentity .rxnodata _ [] rfl rfl,
    readEvent_writeEvent (e := .gbyte 0xAA) nofun [],
    readEvent_writeEvent (e := .rxchunk [0xAA, 0x62]) (by rintro _ ⟨⟩; nofun) []⟩

end Sys2Proof.Machine
end
